-- ==== Sys2Proof/Word.lean ====
section
/-! DEFINITION. Word.lean: the byte and the 32-bit name, and nothing else. Byte order, bit fields and
checksums are operations of Machine/Ops.lean. -/

namespace Sys2Proof

/-- One byte of a packet, of the radio port or of the book store. -/
abbrev Byte := BitVec 8

/-- A 32-bit value that the part does not interpret: a page tag, a checksum, the key clock. -/
abbrev Word32 := BitVec 32

end Sys2Proof
end

