-- ==== Sys2Proof/Syntax.lean ====
section
/-! DEFINITION. Syntax.lean: the commands of the part, one constructor for each row of
spec/opcode_table.json, with their operands. -/

namespace Sys2Proof

/-- The four keys (spec/05, R78). -/
inductive Key where
  | fwd | back | light | power
  deriving DecidableEq, Repr

/-- The two moderated notice kinds (R171). -/
inductive Moderated where
  | done | fetch
  deriving DecidableEq, Repr

/-- The two light channels (spec/06). -/
inductive LightChannel where
  | warm | cool
  deriving DecidableEq, Repr

/-- The commands of the part, in the opcode table's order. The 31 request commands, `pixels` to `wake`,
carry no operand: each is its owner's taking of the oldest request of its stream in the inbound list (R167). A free owner
takes at the end of the event that brings the request in or frees it, as `finish` has it (log 1). -/
inductive Instr where
  /-- COLD_RESET: power-up, with the level of SERVICE (R159, R134). -/
  | coldReset (service : Bool)
  /-- WARM_RESET: RESET falls (R162). -/
  | warmReset
  /-- RESET_RISE: RESET rises (R164). -/
  | resetRise
  /-- WRITE_TRANSFER: chip-select rises on a write; `bytes` were clocked after the first (R165). -/
  | writeTransfer (bytes : List Byte)
  /-- READ_TRANSFER: the first byte of a read is clocked (R169). -/
  | readTransfer
  /-- PACKET_LEFT: the last CRC byte of a read packet is clocked out (R169). -/
  | packetLeft
  /-- UNKNOWN_TRANSFER: a transfer whose first byte names no kind ends (R163). -/
  | unknownTransfer
  /-- CHIP_SELECT_FALL: chip-select falls (R154). -/
  | chipSelectFall
  | pixels | toneMap | update | abort | pageTag | cacheOpen | cacheReady | cacheDrop | turn
  | waveBegin | waveData | waveEnd | waveDrop | bands
  | light | follow
  | fetchOpen | fetchSums | fetchArm | fetchClose | fetchStatus
  | storeRead | storeProgram | storeErase
  | set | get | status | limits | doze | sleep | wake
  /-- STATUS_READ on the radio port (R121). -/
  | statusRead
  /-- REFETCH_READ on the radio port, with the channel byte (R121). -/
  | refetchRead (channel : Byte)
  /-- CHUNK_HEADER: the nine header bytes have been clocked in (R122, R176). -/
  | chunkHeader (bytes : List Byte)
  /-- CHUNK_FRAME_END: the transfer ends; `payload` was clocked after the header (R123). -/
  | chunkFrameEnd (payload : List Byte)
  /-- RADIO_ATTN_RISE: the level RADIO_ATTN takes (R154, log 17). -/
  | radioAttnRise (high : Bool)
  /-- KEY_EDGE: a key's raw level becomes pressed or released (R78). -/
  | keyEdge (key : Key) (pressed : Bool)
  | debounceExpiry (key : Key)
  | longTimerExpiry (key : Key)
  | runTick (key : Key)
  | frameBoundary
  /-- CONVERSION_END with the raw value (R31). -/
  | conversionEnd (raw : Nat)
  | tempIntervalExpiry | sampleTimerExpiry | rampStep | followStep | followSettleExpiry
  | moderationSettleExpiry (kind : Moderated)
  | moderationAbsoluteExpiry (kind : Moderated)
  | drainTimerExpiry | wakeTimerExpiry | resleepTimerExpiry | selfRefreshExitEnd
  | flashReadDone | flashPageDone | flashEraseDone | flashFailure | flashSuspended
  | suspendNoAnswer | minRunPoint | runningTimeOverrun | flashResetDone | flashResetTimeout
  | pwmPeriodStart (channel : LightChannel)
  deriving DecidableEq, Repr

end Sys2Proof
end

