-- ==== Sys2Proof/Decode.lean ====
section
/-! DEFINITION. Decode.lean: the command that a word spells by the opcode table's bits, which the table gives to no
row, and the commands that the first byte of a transfer picks on the page link and on the radio port. -/

namespace Sys2Proof

/-- The opcode table gives bits to none of its rows, so every word is refused. -/
def decodeTableWord (_nbits _w : Nat) : Option Instr := none

/-- Bytes of a chunk frame's header (12.5). -/
def chunkHeaderBytes : Nat := 9

/-- The command that the bytes clocked on the page link in one transfer spell: 0x01 a write, judged when chip-select
rises, 0x02 a read, another first byte an unknown transfer; no byte is no transfer (R163). -/
def linkCommand : List Byte → Option Instr
  | [] => none
  | b :: rest =>
    if b = 0x01 then some (.writeTransfer rest)
    else if b = 0x02 then some .readTransfer
    else some .unknownTransfer

/-- The command that the bytes clocked into the radio port from the start of a transfer spell: 0x11 a STATUS read, 0x12
and a channel a REFETCH read, 0x13 and nine header bytes a chunk frame's header (12.5, R176). A transfer whose first
byte names no kind is ignored (R121), and so is one that ends before its channel or its header is whole. -/
def radioCommand : List Byte → Option Instr
  | [] => none
  | b :: rest =>
    if b = 0x11 then some .statusRead
    else if b = 0x12 then rest.head?.map Instr.refetchRead
    else if b = 0x13 then
      (if rest.length < chunkHeaderBytes then none else some (.chunkHeader (rest.take chunkHeaderBytes)))
    else none

end Sys2Proof
end

