-- ==== Sys2Proof/Config.lean ====
section
/-! DEFINITION. Config.lean: the fixed sizes of the part, and its one source of free values. -/

namespace Sys2Proof.Config

/-- The panel is 1600 pixels wide (spec/00_scope.md, Panel coordinates). -/
def panelWidth : Nat := 1600

/-- The panel is 1200 pixels high (spec/00_scope.md, Panel coordinates). -/
def panelHeight : Nat := 1200

/-- Tiles in a row: 100 columns (spec/00_scope.md, Tiles). -/
def tileColumns : Nat := 100

/-- Rows of tiles: 75 (spec/00_scope.md, Tiles). -/
def tileRows : Nat := 75

/-- The level an unlisted pixel of a plane has: the level a cold reset gives every pixel (R1, R2). -/
def blankLevel : Nat := 15

/-- Room of the held-write list in bytes (R13). -/
def heldRoom : Nat := 65536

/-- Phase units of waveform memory (R19). -/
def phaseUnits : Nat := 1024

/-- First slab of the pool (R56). -/
def poolBase : Nat := 16

/-- Slabs of the pool (R56). -/
def poolSlabs : Nat := 240

/-- Slabs of one plane (R2, R57). -/
def planeSlabs : Nat := 15

/-- Bytes of the book store (R133). -/
def storeBytes : Nat := 536870912

/-- Bytes of one sector of the book store (R133). -/
def sectorBytes : Nat := 131072

/-- Bytes of one page of the book store (R133). -/
def pageBytes : Nat := 4096

/-- Bytes of the boot area (R134). -/
def bootBytes : Nat := 1048576

/-- What an unlisted byte of the book store reads as: the erased byte (DESIGN CHOICE, log 5). -/
def erasedByte : Byte := 0xFF

/-- The byte that R133 calls unknown, one for each number: nothing constrains it (log 6). -/
opaque freeByte : Nat → Byte

end Sys2Proof.Config
end

