-- ==== Sys2Proof/Machine/Defaults.lean ====
section
/-! DEFINITION. Machine/Defaults.lean: the settings table of R173 and the tables a cold reset loads. -/

namespace Sys2Proof.Machine

/-- The 38 settings of R173. -/
inductive Setting where
  | framePeriodUs | residueLimit | skimThreshold | tempIntervalS | tempMaxAgeS | tempLowDd | tempHighDd
  | debounceMs | longMs | runMs | localKeys | cacheFloor | fetchFloor | lightMaxUa | warmFullUa
  | coolFullUa | pwmDiv | rampRate | warmthRate | followHyst | followSettleMs | ambientGain | panelBaseMa
  | storeReadMa | storeProgramMa | storeEraseMa | lowMarkMv | doneCount | doneSettleMs | doneAbsoluteMs
  | fetchCount | fetchSettleMs | fetchAbsoluteMs | wakeSet | eraseMinRunUs | suspendLimit | drainTimeoutMs
  | resleepMs
  deriving DecidableEq, Repr

/-- One row of the settings table: number, lower end, upper end, default. -/
structure SettingRow where
  number : Nat
  lo : Int
  hi : Int
  dflt : Int
  deriving DecidableEq, Repr

/-- The settings table of R173. The lower ends of temp_max_age_s and temp_high_dd, which R173 gives as other
settings, are those settings' own lower ends here; `clampSetting` applies the ones in force. wake_set is
nine flags, 0 to 511. -/
def settingRow : Setting → SettingRow
  | .framePeriodUs => ⟨1, 10000, 30000, 12000⟩
  | .residueLimit => ⟨2, 1, 255, 8⟩
  | .skimThreshold => ⟨3, 1, 15, 8⟩
  | .tempIntervalS => ⟨4, 5, 300, 30⟩
  | .tempMaxAgeS => ⟨5, 5, 600, 60⟩
  | .tempLowDd => ⟨6, -200, 700, 0⟩
  | .tempHighDd => ⟨7, -200, 700, 500⟩
  | .debounceMs => ⟨8, 5, 100, 20⟩
  | .longMs => ⟨9, 300, 3000, 800⟩
  | .runMs => ⟨10, 150, 2000, 400⟩
  | .localKeys => ⟨11, 0, 3, 3⟩
  | .cacheFloor => ⟨12, 0, 120, 60⟩
  | .fetchFloor => ⟨13, 0, 64, 16⟩
  | .lightMaxUa => ⟨14, 0, 60000, 40000⟩
  | .warmFullUa => ⟨15, 1000, 30000, 20000⟩
  | .coolFullUa => ⟨16, 1000, 30000, 20000⟩
  | .pwmDiv => ⟨17, 0, 7, 2⟩
  | .rampRate => ⟨18, 1, 1000, 20⟩
  | .warmthRate => ⟨19, 1, 255, 8⟩
  | .followHyst => ⟨20, 0, 200, 30⟩
  | .followSettleMs => ⟨21, 100, 10000, 1500⟩
  | .ambientGain => ⟨22, 1, 255, 16⟩
  | .panelBaseMa => ⟨23, 0, 100, 15⟩
  | .storeReadMa => ⟨24, 0, 50, 4⟩
  | .storeProgramMa => ⟨25, 0, 50, 12⟩
  | .storeEraseMa => ⟨26, 0, 50, 18⟩
  | .lowMarkMv => ⟨27, 3000, 4000, 3400⟩
  | .doneCount => ⟨28, 1, 48, 4⟩
  | .doneSettleMs => ⟨29, 0, 1000, 50⟩
  | .doneAbsoluteMs => ⟨30, 0, 5000, 200⟩
  | .fetchCount => ⟨31, 1, 4096, 16⟩
  | .fetchSettleMs => ⟨32, 0, 5000, 500⟩
  | .fetchAbsoluteMs => ⟨33, 0, 60000, 5000⟩
  | .wakeSet => ⟨34, 0, 511, 0xC4⟩
  | .eraseMinRunUs => ⟨35, 100, 5000, 500⟩
  | .suspendLimit => ⟨36, 1, 64, 16⟩
  | .drainTimeoutMs => ⟨37, 100, 60000, 5000⟩
  | .resleepMs => ⟨38, 500, 10000, 2000⟩

/-- Every setting, in number order. -/
def allSettings : List Setting :=
  [.framePeriodUs, .residueLimit, .skimThreshold, .tempIntervalS, .tempMaxAgeS, .tempLowDd, .tempHighDd,
   .debounceMs, .longMs, .runMs, .localKeys, .cacheFloor, .fetchFloor, .lightMaxUa, .warmFullUa,
   .coolFullUa, .pwmDiv, .rampRate, .warmthRate, .followHyst, .followSettleMs, .ambientGain, .panelBaseMa,
   .storeReadMa, .storeProgramMa, .storeEraseMa, .lowMarkMv, .doneCount, .doneSettleMs, .doneAbsoluteMs,
   .fetchCount, .fetchSettleMs, .fetchAbsoluteMs, .wakeSet, .eraseMinRunUs, .suspendLimit, .drainTimeoutMs,
   .resleepMs]

/-- The setting a number names, if any (R173). -/
def settingOfNumber (n : Nat) : Option Setting :=
  allSettings.find? fun st => (settingRow st).number == n

/-- Every setting at its default, in number order (R173). -/
def defaultSettings : List Int := allSettings.map fun st => (settingRow st).dflt

/-- The tone map a cold reset loads (R7). -/
def defaultToneMap : List Nat := (List.range 256).map fun v => (v * 15 + 127) / 255

/-- The limit table a cold reset loads: pairs of mV and mA (R102). -/
def defaultLimitTable : List (Nat × Nat) := [(3300, 80), (3500, 200), (3700, 320), (4200, 400)]

end Sys2Proof.Machine
end

