-- ==== Sys2Proof/Machine/State.lean ====
section
/-! DEFINITION. Machine/State.lean: everything the spec gives the part to hold, as plain data, and the state
right after a cold reset. Each record's docstring names the rules that give its fields. -/

namespace Sys2Proof.Machine

open Sys2Proof

/-- The block stops at nothing: every error of the spec is a response code, a notice or a state of the
machine, so no reason to stop exists. Nobody raises a fault. -/
inductive Fault where
  deriving DecidableEq, Repr

/-- Reasons for which `exec` has no meaning for a command. -/
inductive Refusal where
  /-- Raised by an arm of `exec` whose command has no meaning yet, with its mnemonic. Safe: nothing is claimed
  of the command. No arm of this model raises it. -/
  | notModelled (mnemonic : String)
  deriving DecidableEq, Repr

/-- A timer: stopped, or the instant in µs at which it is due (log 3). -/
abbrev Timer := Option Nat

/-- Memory as pairs of address and byte: addresses strictly rising, no pair equal to what an unlisted address
reads as (R133, log 5). -/
abbrev Memory := List Host.Cell

/-- A plane as pairs of pixel number (1600y + x) and level: pixels strictly rising, no level 15, which an
unlisted pixel has (R1, R2, log 8). -/
abbrev Plane := List (Nat × Nat)

/-- Drive modes (R16). -/
inductive Mode where
  | clear | tone | text | skim
  deriving DecidableEq, Repr

/-- The two page lists, and the two turn directions (R66, R72). -/
inductive Dir where
  | forward | back
  deriving DecidableEq, Repr

/-- A rectangle of pixels, both corners included. -/
structure Rect where
  x0 : Nat
  y0 : Nat
  x1 : Nat
  y1 : Nat
  deriving DecidableEq, Repr

/-- A rectangle of tiles, both corners included: the tile set of a rectangle of pixels. -/
structure TileSet where
  tx0 : Nat
  ty0 : Nat
  tx1 : Nat
  ty1 : Nat
  deriving DecidableEq, Repr

/-- The 31 request kinds (R166). -/
inductive ReqKind where
  | pixels | toneMap | update | abort | pageTag | cacheOpen | cacheReady | cacheDrop | turn
  | waveBegin | waveData | waveEnd | waveDrop | bands
  | light | follow
  | fetchOpen | fetchSums | fetchArm | fetchClose | fetchStatus
  | storeRead | storeProgram | storeErase
  | set | get | status | limits | doze | sleep | wake
  deriving DecidableEq, Repr

/-- The five streams (R166). -/
inductive Stream where
  | display | light | fetch | store | control
  deriving DecidableEq, Repr

/-- An accepted request: its kind, its tag and its body (R165, R166). -/
structure Request where
  kind : ReqKind
  tag : Byte
  body : List Byte
  deriving DecidableEq, Repr

/-- The response codes (R168). -/
inductive Code where
  | ok | full | range | state | room | inUse | shielded | unknown | length | timeout | fault | lowSupply
  deriving DecidableEq, Repr

/-- The nine notice kinds (R170), in the order of wake_set (R173). -/
inductive NoticeKind where
  | done | key | turn | temp | light | budget | fetch | power | link
  deriving DecidableEq, Repr

/-- A response: the request's kind byte and tag, a code and the owner's body (R168, R176). -/
structure Response where
  kindByte : Byte
  tag : Byte
  code : Code
  body : List Byte
  deriving DecidableEq, Repr

/-- A packet of the outbound queue: a response, a waiting notice, or a notice built at its read and not yet
clocked out whole (R169, R170). -/
inductive OutItem where
  | response (r : Response)
  | waiting (k : NoticeKind)
  | built (k : NoticeKind) (packet : List Byte)
  deriving DecidableEq, Repr

/-! ## Image store (R1 to R15) -/

/-- One record of the tile table (R3 to R6). -/
structure Tile where
  owner : Option Nat
  residue : Nat
  unsure : Bool
  pending : Bool
  deriving DecidableEq, Repr

/-- A converted TARGET packet: the rectangle as sent, its levels in row-major order, its format, its payload
length and its place in the DISPLAY order (R10, R13). -/
structure HeldPacket where
  rect : Rect
  level4 : Bool
  levels : List Nat
  payload : Nat
  place : Nat
  deriving DecidableEq, Repr

/-- The image store: R1 to R15. -/
structure ImageStore where
  shown : Plane
  target : Plane
  tiles : List Tile
  toneMap : List Nat
  held : List HeldPacket
  /-- The PIXELS request stalled at the head of the DISPLAY stream, with its packet (R14). -/
  stall : Option (Request × HeldPacket)
  deriving DecidableEq, Repr

/-! ## Waveform store and converter (R16 to R32) -/

/-- States of a waveform record (R17). -/
inductive WaveState where
  | loading | installed | retired
  deriving DecidableEq, Repr

/-- A waveform record (R17), with a number that tells records apart. -/
structure Wave where
  num : Nat
  mode : Mode
  band : Nat
  current : Nat
  /-- The phase units in phase order, 64 bytes each; their count is the phase count. -/
  phases : List (List Byte)
  state : WaveState
  lanes : Nat
  claimed : Bool
  deriving DecidableEq, Repr

/-- The band table (R26). -/
structure BandTable where
  count : Nat
  bounds : List Int
  hyst : Nat
  deriving DecidableEq, Repr

/-- The waveform store: R17 to R30. The slot of a mode and band is the INSTALLED record with them; the open
load is the LOADING record; free units are 1,024 less the records' phases. -/
structure WaveStore where
  waves : List Wave
  nextNum : Nat
  table : BandTable
  /-- The held reading in dd and the instant it was completed (R28, R29). -/
  reading : Option (Int × Nat)
  band : Option Nat
  outOfRange : Bool
  fault : Bool
  /-- Bits 0 to 3: BAND_CHANGED, LEFT_RANGE, ENTERED_RANGE, SENSOR_FAULT (R30, R176). -/
  events : Byte
  interval : Timer
  deriving DecidableEq, Repr

/-- Converter channels (R31). -/
inductive Chan where
  | temp | batt | amb
  deriving DecidableEq, Repr

/-- The converter: R31 and R32. -/
structure Converter where
  temp : Bool
  batt : Bool
  amb : Bool
  /-- The channel being converted and the instant its conversion ends. -/
  busy : Option (Chan × Nat)
  last : Chan
  powered : Bool
  deriving DecidableEq, Repr

/-! ## Update engine (R33 to R55) -/

/-- Where an update comes from (R35). -/
inductive Origin where
  | host | cache
  deriving DecidableEq, Repr

/-- A pick record (R35, R38 to R40). `base` is the panel_base_ma the claim includes, if it includes it. -/
structure Pick where
  mode : Mode
  promoted : Bool
  region : Rect
  wave : Nat
  tilePart : Nat
  base : Option Nat
  deriving DecidableEq, Repr

/-- A queue entry (R35), with a number that tells entries apart. It is CLAIMING when it has a pick record. -/
structure QEntry where
  num : Nat
  id : Nat
  region : Rect
  tiles : TileSet
  mode : Mode
  noPromote : Bool
  origin : Origin
  place : Nat
  pick : Option Pick
  deriving DecidableEq, Repr

/-- Lane states (3.6). -/
inductive LaneState where
  | joining | driving | stopping
  deriving DecidableEq, Repr

/-- A lane record (R42), with its queue entry's number. `dropped` is set when a warm reset has dropped the
lane's grant (R54). -/
structure Lane where
  num : Nat
  id : Nat
  origin : Origin
  region : Rect
  tiles : TileSet
  mode : Mode
  promoted : Bool
  wave : Nat
  total : Nat
  phase : Nat
  grant : Nat
  state : LaneState
  dropped : Bool
  deriving DecidableEq, Repr

/-- States of the panel supply (R44). -/
inductive PanelSupply where
  | off | starting | on
  deriving DecidableEq, Repr

/-- Completion statuses (R51). -/
inductive Status where
  | done | aborted | noWaveform | lowSupply
  deriving DecidableEq, Repr

/-- A completion record (R51). -/
structure Completion where
  id : Nat
  status : Status
  mode : Mode
  promoted : Bool
  origin : Origin
  deriving DecidableEq, Repr

/-- The update engine: R33 to R55. -/
structure Engine where
  queue : List QEntry
  lanes : List (Option Lane)
  /-- The drive base grant, as it stood when it was claimed (R42, R104). -/
  base : Option Nat
  supply : PanelSupply
  boundary : Timer
  completions : List Completion
  nextNum : Nat
  deriving DecidableEq, Repr

/-! ## Page memory (R56 to R64) -/

/-- Holders of a pool slab (R57). -/
inductive Holder where
  | free
  | target
  | entry (n : Nat)
  | credit (channel : Nat)
  | chunk (channel index : Nat)
  deriving DecidableEq, Repr

/-! ## Page cache and key scanner (R65 to R85) -/

/-- A cache entry (R65). While `isOpen`, `written` lists the written pixels with their levels and stands for the
written marks; once READY, `plane` is the page. -/
structure Entry where
  num : Nat
  tag : Word32
  turnMode : Mode
  fill : Option Nat
  isOpen : Bool
  written : List (Nat × Nat)
  plane : Plane
  deriving DecidableEq, Repr

/-- Miss reasons (R72). -/
inductive Miss where
  | empty | notReady | busy | dirty | full
  deriving DecidableEq, Repr

/-- Sources of a turn attempt (5.3). -/
inductive Source where
  | key | host | run
  deriving DecidableEq, Repr

/-- A turn record (R77): TURNED when `miss` is none. -/
structure TurnRecord where
  dir : Dir
  miss : Option Miss
  tag : Word32
  dropped : Option (Nat × Word32)
  source : Source
  time : Nat
  deriving DecidableEq, Repr

/-- The page cache: R65 to R77. -/
structure PageCache where
  forward : List Entry
  back : List Entry
  tag : Word32
  turnMode : Mode
  records : List TurnRecord
  lost : Bool
  deriving DecidableEq, Repr

/-- States of a key (R79). -/
inductive KeyState where
  | up | down | held
  deriving DecidableEq, Repr

/-- Key events (R79). -/
inductive KeyEvent where
  | press | long | release
  deriving DecidableEq, Repr

/-- A key event record (R79). -/
structure KeyRecord where
  key : Key
  event : KeyEvent
  time : Nat
  deriving DecidableEq, Repr

/-- A run (R81): its timer, stopped when the run has ended because turns were disabled, and the turns it has
counted. -/
structure Run where
  timer : Timer
  turns : Nat
  deriving DecidableEq, Repr

/-- One key's scanner state (R78, R79, R81). `pressed` is the raw level, `down` the debounced level, `last` the
number of the update appended by the most recent turn of this press, `mute` the mark of R155 that this
press's RELEASE makes no toggle. -/
structure KeyScan where
  pressed : Bool
  down : Bool
  state : KeyState
  debounce : Timer
  long : Timer
  run : Option Run
  last : Option Nat
  mute : Bool
  deriving DecidableEq, Repr

/-- The key scanner: R78 to R85. -/
structure Scanner where
  fwd : KeyScan
  back : KeyScan
  light : KeyScan
  power : KeyScan
  records : List KeyRecord
  lost : Bool
  /-- The instant at which the key clock last restarted (R78, R85). -/
  epoch : Nat
  deriving DecidableEq, Repr

/-! ## Front light (R86 to R98) -/

/-- States of the light (R86). -/
inductive LightState where
  | off | ramping | steady | cut
  deriving DecidableEq, Repr

/-- The front light: R86 to R98. -/
structure FrontLight where
  level : Nat
  levelTarget : Nat
  warmth : Nat
  warmthTarget : Nat
  claim : Nat
  grant : Nat
  state : LightState
  follow : Bool
  table : List (Nat × Nat)
  toggleLevel : Nat
  toggledOff : Bool
  drainLevel : Option Nat
  ramp : Timer
  settle : Timer
  arming : Nat
  latest : Nat
  step : Timer
  /-- The duties and the pwm_div in force (R90). -/
  warmDuty : Nat
  coolDuty : Nat
  warmDiv : Nat
  coolDiv : Nat
  pwmOn : Bool
  /-- Bits 0 to 2: TARGET_REACHED, CUT_ENTERED, CUT_LEFT (R96, R176). -/
  events : Byte
  deriving DecidableEq, Repr

/-! ## Supply budget (R99 to R111) -/

/-- The two claimants that wait (R105). -/
inductive Claimant where
  | engine | store
  deriving DecidableEq, Repr

/-- A waiting claim (R105). -/
structure Claim where
  who : Claimant
  amount : Nat
  deriving DecidableEq, Repr

/-- The supply budget: R99 to R111. The grants are held by their claimants (R104). -/
structure Supply where
  /-- Empty, or the last eight raw values, oldest first (R100). -/
  filter : List Nat
  volts : Option Nat
  limitTable : List (Nat × Nat)
  limit : Nat
  lowFired : Bool
  waiting : List Claim
  cutMark : Bool
  /-- Bits 0 and 1: CUT, RESTORED (R110, R176). -/
  events : Byte
  sample : Timer
  deriving DecidableEq, Repr

/-! ## Fetch engine (R112 to R132) -/

/-- States of a fetch channel (R112). -/
inductive ChanState where
  | closed | loading | armed | finished | failed | closing
  deriving DecidableEq, Repr

/-- States of a chunk (R112). -/
inductive ChunkState where
  | missing | staged | writing | stored | bad
  deriving DecidableEq, Repr

/-- One chunk's part of the channel record; `payload` is its slab's content while it holds one. -/
structure Chunk where
  state : ChunkState
  bad : Nat
  retry : Bool
  payload : List Byte
  deriving DecidableEq, Repr

/-- A manifest (R113). A sum is none while its loaded mark is clear. `chunkKiB` is the chunk size in KiB. -/
structure Manifest where
  length : Nat
  chunkKiB : Nat
  count : Nat
  base : Nat
  window : Nat
  mark : Nat
  sums : List (Option Word32)
  deriving DecidableEq, Repr

/-- Why a channel failed (R112). -/
inductive FailReason where
  | repeatedBad | refetchFull | storeFault
  deriving DecidableEq, Repr

/-- A fetch channel's record (R112, R130). -/
structure Channel where
  state : ChanState
  manifest : Option Manifest
  chunks : List Chunk
  pfx : Nat
  stored : Nat
  refetch : List Nat
  cursor : Nat
  eraseRetry : Bool
  noCredit : Nat
  outOfWindow : Nat
  duplicate : Nat
  reason : Option FailReason
  reached : Bool
  /-- Bits 0 to 3: PREFIX_REACHED, FINISHED, FAILED, CLOSED (R130, R176). -/
  events : Byte
  deriving DecidableEq, Repr

/-- The chunk frame in reception (R112, R122). -/
structure Reception where
  channel : Nat
  index : Nat
  length : Nat
  deriving DecidableEq, Repr

/-- The operation in the fetch engine's store slot (R126): an erase of a sector, or a program of a chunk.
`ignored` is set once its outcome is to change nothing (R125, R132). -/
structure SlotOp where
  channel : Nat
  /-- The chunk programmed, or none for an erase of the cursor's sector. -/
  chunk : Option Nat
  ignored : Bool
  deriving DecidableEq, Repr

/-- The fetch engine: R112 to R132. -/
structure Fetch where
  channels : List Channel
  reception : Option Reception
  lastGranted : Nat
  lastGiven : Nat
  slot : Option SlotOp
  paused : Bool
  deriving DecidableEq, Repr

/-! ## Book store (R133 to R147) -/

/-- Who an operation's outcome goes to: the host's request (R135), the fetch engine (R137), power control's
boot read (R146), or nobody, after a warm reset (R147). -/
inductive OpSource where
  | host (r : Request)
  | fetch
  | boot
  | nobody
  deriving DecidableEq, Repr

/-- What an operation does at the flash (R136). -/
inductive OpKind where
  | read (addr len : Nat)
  | program (addr : Nat) (data : List Byte)
  | erase (sector : Nat)
  deriving DecidableEq, Repr

/-- An entry of the operation queue (R136). -/
structure Op where
  source : OpSource
  kind : OpKind
  arrival : Nat
  deriving DecidableEq, Repr

/-- Flash states (R138). -/
inductive FlashState where
  | idle | claiming | running | suspending | suspended | resetting | offline | lowPower
  deriving DecidableEq, Repr

/-- The book store beside its content: R134 to R147. -/
structure Store where
  bootProtected : Bool
  flash : FlashState
  queue : List Op
  nextArrival : Nat
  /-- The operation claiming or at the flash (R139, R140). -/
  op : Option Op
  /-- The grant of the operation at the flash (R104). -/
  grant : Option Nat
  /-- Pages of the operation already programmed (R141). -/
  page : Nat
  /-- Set when no further page is to begin (R137, R147). -/
  cut : Bool
  suspends : Nat
  /-- Running time of the operation up to `since`, and the instant its running time last began to count. -/
  ran : Nat
  since : Nat
  /-- The instant of the last suspend or reset command (R143, R144). -/
  commanded : Nat
  /-- The batch of reads served while SUSPENDED, the one at the flash first (R143). -/
  batch : List Op
  deriving DecidableEq, Repr

/-! ## Power control (R148 to R162) -/

/-- Power states (R148). -/
inductive PowerState where
  | starting | active | doze | draining | sleep
  deriving DecidableEq, Repr

/-- Wake sources (R154). -/
inductive WakeSource where
  | fwd | back | light | power | radio | timer | host
  deriving DecidableEq, Repr

/-- Boot outcomes (R148, R161, R162). -/
inductive BootOutcome where
  | loaded | partly | defaults | warm
  deriving DecidableEq, Repr

/-- The drain conditions (R151). -/
inductive DrainCond where
  | inbound | lanes | queue | held | store | chunks | reception | light
  deriving DecidableEq, Repr

/-- The WAVE_IMAGE being read (R160): the store address after the read at the flash, the bytes of the image after that
read, and the bytes read of its records not yet judged. -/
structure BootImage where
  next : Nat
  left : Nat
  got : List Byte
  deriving DecidableEq, Repr

/-- Where the boot-table read stands (R160). `entries` are the entry bytes read so far, `at_` the walk's position
in them. `failing` is set once a read has overrun and the end of start-up waits for the flash's reset (R161, log 23). -/
structure Boot where
  headerRead : Bool
  length : Nat
  sum : Word32
  entries : List Byte
  at_ : Nat
  image : Option BootImage
  skipped : Nat
  badImage : Bool
  failing : Bool
  deriving DecidableEq, Repr

/-- Power control: R148 to R162, with the RESET and RADIO_ATTN lines. -/
structure Power where
  state : PowerState
  prior : Option PowerState
  /-- The wake period in seconds and the resleep flag of the SLEEP request (R148). -/
  order : Option (Nat × Bool)
  drain : Timer
  wakeTimer : Timer
  resleep : Timer
  resleepPending : Bool
  waking : List WakeSource
  /-- The end of a running self-refresh exit (R154, R162). -/
  exit : Timer
  /-- RESET fell and its event waits for the exit's end (R162). -/
  resetWaits : Bool
  lastWake : Option WakeSource
  outcome : BootOutcome
  skipped : Nat
  failed : Option DrainCond
  /-- Bits 0 to 5: START, ENTERED, SLEEP_FAILED, SLEEP_CANCELLED, TIMER, BATTERY_LOW (R157, R176). -/
  events : Byte
  boot : Option Boot
  resetLow : Bool
  radioAttn : Bool
  deriving DecidableEq, Repr

/-! ## Page link (R163 to R175) -/

/-- The read being clocked out (R169). -/
inductive Reading where
  | nothing | empty | head
  deriving DecidableEq, Repr

/-- One moderation record (R171). -/
structure Moderation where
  count : Nat
  settle : Timer
  absolute : Timer
  deriving DecidableEq, Repr

/-- The page link: R163 to R175. -/
structure Link where
  inbound : List Request
  /-- Open requests, each holding a response slot (R164). -/
  opened : Nat
  out : List OutItem
  reading : Reading
  /-- The transfer under way is one whose chip-select began or joined a wake (R154). -/
  wakeTransfer : Bool
  /-- Merged counts of the nine kinds, in the order of `NoticeKind` (R170). -/
  merged : List Nat
  doneMod : Moderation
  fetchMod : Moderation
  crc : Nat
  framing : Nat
  notReady : Nat
  /-- Bits 0 to 2: CRC, FRAMING, NOT_READY (R172, R176). -/
  events : Byte
  deriving DecidableEq, Repr

/-! ## The whole part -/

/-- The state of the part. `now`, `pending`, `fresh`, `lastLink`, `lastRadio` and `displayPlace` are the model's
own (INVENTORY.md, State). -/
structure State where
  now : Nat
  pending : List Instr
  fresh : Nat
  lastLink : List Byte
  lastRadio : List Byte
  displayPlace : Nat
  settings : List Int
  img : ImageStore
  wav : WaveStore
  conv : Converter
  eng : Engine
  /-- Holders of pool slabs 16 to 255, in order (R57). -/
  pool : List Holder
  cache : PageCache
  keys : Scanner
  light : FrontLight
  sup : Supply
  fetch : Fetch
  store : Store
  content : Memory
  pow : Power
  link : Link
  deriving DecidableEq, Repr

/-! ## Reset values -/

/-- A tile after a cold reset (R3 to R6). -/
def Tile.reset : Tile := { owner := none, residue := 0, unsure := true, pending := false }

/-- The image store after a cold reset (R1, R2, R7, R15). -/
def ImageStore.reset : ImageStore :=
  { shown := [], target := [], tiles := List.replicate 7500 Tile.reset, toneMap := defaultToneMap,
    held := [], stall := none }

/-- The waveform store after a cold reset (R18, R26, R27, R29, R30). -/
def WaveStore.reset : WaveStore :=
  { waves := [], nextNum := 0, table := { count := 1, bounds := [], hyst := 0 }, reading := none,
    band := none, outOfRange := false, fault := false, events := 0, interval := none }

/-- The converter once a cold reset has begun start-up: the BATT conversion of R159 runs (R31). -/
def Converter.reset : Converter :=
  { temp := false, batt := false, amb := false, busy := some (.batt, 200), last := .amb, powered := true }

/-- The update engine after a cold reset (R55). -/
def Engine.reset : Engine :=
  { queue := [], lanes := List.replicate 16 none, base := none, supply := .off, boundary := none,
    completions := [], nextNum := 0 }

/-- The pool after a cold reset: slabs 16-30 TARGET, the rest FREE (R63). -/
def poolReset : List Holder := List.replicate 15 .target ++ List.replicate 225 .free

/-- The page cache after a cold reset (R67, R85). -/
def PageCache.reset : PageCache :=
  { forward := [], back := [], tag := 0, turnMode := .tone, records := [], lost := false }

/-- A key after a cold reset (R85). -/
def KeyScan.reset : KeyScan :=
  { pressed := false, down := false, state := .up, debounce := none, long := none, run := none,
    last := none, mute := false }

/-- The key scanner after a cold reset (R85). -/
def Scanner.reset : Scanner :=
  { fwd := .reset, back := .reset, light := .reset, power := .reset, records := [], lost := false, epoch := 0 }

/-- The front light after a cold reset (R98, R83). -/
def FrontLight.reset : FrontLight :=
  { level := 0, levelTarget := 0, warmth := 128, warmthTarget := 128, claim := 0, grant := 0, state := .off,
    follow := false, table := [], toggleLevel := 500, toggledOff := false, drainLevel := none,
    ramp := none, settle := none, arming := 0, latest := 0, step := none, warmDuty := 0, coolDuty := 0,
    warmDiv := 2, coolDiv := 2, pwmOn := true, events := 0 }

/-- The supply budget after a cold reset (R111). -/
def Supply.reset : Supply :=
  { filter := [], volts := none, limitTable := defaultLimitTable, limit := 0, lowFired := false,
    waiting := [], cutMark := false, events := 0, sample := none }

/-- A fetch channel after a reset (R132, logs 4, 44, 45). -/
def Channel.reset : Channel :=
  { state := .closed, manifest := none, chunks := [], pfx := 0, stored := 0, refetch := [], cursor := 0,
    eraseRetry := false, noCredit := 0, outOfWindow := 0, duplicate := 0, reason := none, reached := false,
    events := 0 }

/-- The fetch engine after a cold reset (R132). -/
def Fetch.reset : Fetch :=
  { channels := List.replicate 4 .reset, reception := none, lastGranted := 3, lastGiven := 3, slot := none,
    paused := false }

/-- The book store after a cold reset with SERVICE low (R134, R147, log 4). -/
def Store.reset : Store :=
  { bootProtected := true, flash := .idle, queue := [], nextArrival := 0, op := none, grant := none, page := 0,
    cut := false, suspends := 0, ran := 0, since := 0, commanded := 0, batch := [] }

/-- Power control after a cold reset (R159). -/
def Power.reset : Power :=
  { state := .starting, prior := none, order := none, drain := none, wakeTimer := none, resleep := none,
    resleepPending := false, waking := [], exit := none, resetWaits := false, lastWake := none,
    outcome := .defaults, skipped := 0, failed := none, events := 0, boot := none, resetLow := false,
    radioAttn := false }

/-- A moderation record after a reset (R175). -/
def Moderation.reset : Moderation := { count := 0, settle := none, absolute := none }

/-- The page link after a reset (R175). -/
def Link.reset : Link :=
  { inbound := [], opened := 0, out := [], reading := .nothing, wakeTransfer := false,
    merged := List.replicate 9 0, doneMod := .reset, fetchMod := .reset, crc := 0, framing := 0, notReady := 0, events := 0 }

/-- The state right after a cold reset: every block at its cold-reset values, the part in STARTING, and the
BATT conversion of start-up begun (R159). -/
def State.reset : State :=
  { now := 0, pending := [], fresh := 0, lastLink := [], lastRadio := [], displayPlace := 0,
    settings := defaultSettings, img := .reset, wav := .reset, conv := .reset, eng := .reset,
    pool := poolReset, cache := .reset, keys := .reset, light := .reset, sup := .reset, fetch := .reset,
    store := .reset, content := [], pow := .reset, link := .reset }

end Sys2Proof.Machine
end

