-- ==== Sys2Proof/Machine/Ops.lean ====
section
/-! DEFINITION. Machine/Ops.lean: byte order, checksums, timers, the content of the book store, planes, tiles
and slab holders: the shared operations every meaning is made of. -/

namespace Sys2Proof.Machine

open Sys2Proof

/-! ## Bytes (R176: least significant byte first) -/

/-- The low eight bits of a number. -/
def byteOf (n : Nat) : Byte := BitVec.ofNat 8 n

/-- Two bytes, least significant first. -/
def le16 (n : Nat) : List Byte := [byteOf n, byteOf (n / 256)]

/-- Three bytes, least significant first. -/
def le24 (n : Nat) : List Byte := [byteOf n, byteOf (n / 256), byteOf (n / 65536)]

/-- Four bytes, least significant first. -/
def le32 (n : Nat) : List Byte := le16 n ++ le16 (n / 65536)

/-- A signed number in two bytes of two's complement. -/
def leInt16 (i : Int) : List Byte := le16 (i % 65536).toNat

/-- A signed number in four bytes of two's complement. -/
def leInt32 (i : Int) : List Byte := le32 (i % 4294967296).toNat

/-- A mark: 0 for clear, 1 for set (R176). -/
def markByte (b : Bool) : Byte := if b then 1 else 0

/-- The byte at an offset, as a number. -/
def byteAt (bs : List Byte) (i : Nat) : Nat := (bs.getD i 0).toNat

/-- The two-byte field at an offset. -/
def nat16At (bs : List Byte) (i : Nat) : Nat := byteAt bs i + 256 * byteAt bs (i + 1)

/-- The four-byte field at an offset. -/
def nat32At (bs : List Byte) (i : Nat) : Nat := nat16At bs i + 65536 * nat16At bs (i + 2)

/-- A two-byte number read as two's complement. -/
def signed16 (n : Nat) : Int := if n < 32768 then n else (n : Int) - 65536

/-- A four-byte number read as two's complement. -/
def signed32 (n : Nat) : Int := if n < 2147483648 then n else (n : Int) - 4294967296

/-- Two-byte fields one after another, as long as whole fields are left. -/
def nat16s : List Byte → List Nat
  | a :: b :: rest => (a.toNat + 256 * b.toNat) :: nat16s rest
  | _ => []

/-- Pairs of two-byte fields one after another. -/
def pairs16 : List Byte → List (Nat × Nat)
  | a :: b :: c :: d :: rest => (a.toNat + 256 * b.toNat, c.toNat + 256 * d.toNat) :: pairs16 rest
  | _ => []

/-- Four-byte fields one after another. -/
def words32 : List Byte → List Word32
  | a :: b :: c :: d :: rest =>
    BitVec.ofNat 32 (a.toNat + 256 * b.toNat + 65536 * c.toNat + 16777216 * d.toNat) :: words32 rest
  | _ => []

/-- Pieces of `n + 1` bytes; a last piece may be shorter. -/
def piecesGo (n : Nat) : Nat → List Byte → List (List Byte)
  | 0, _ => []
  | k + 1, bs => if bs.isEmpty then [] else bs.take (n + 1) :: piecesGo n k (bs.drop (n + 1))

/-- Phase units of 64 bytes (R21). -/
def phaseUnitsOf (bs : List Byte) : List (List Byte) := piecesGo 63 bs.length bs

/-- Sets bit `k` of a set of event kinds (R176). -/
def setEvent (events : Byte) (k : Nat) : Byte := events ||| (1 <<< k)

/-! ## Checksums -/

/-- One bit of the CRC-16 of R122 and R165. -/
def crc16Bit (c : BitVec 16) : BitVec 16 := if c.msb then (c <<< 1) ^^^ 0x1021 else c <<< 1

/-- One byte of the CRC-16. -/
def crc16Byte (c : BitVec 16) (b : Byte) : BitVec 16 :=
  Nat.repeat crc16Bit 8 (c ^^^ ((b.setWidth 16) <<< 8))

/-- The CRC-16: polynomial 0x1021, initial 0xFFFF, no reflection, no inversion (R122, R165). -/
def crc16 (bs : List Byte) : BitVec 16 := bs.foldl crc16Byte 0xFFFF

/-- One bit of the reflected CRC-32 of R22. -/
def crc32Bit (c : BitVec 32) : BitVec 32 := if c.getLsbD 0 then (c >>> 1) ^^^ 0xEDB88320 else c >>> 1

/-- One byte of the CRC-32. -/
def crc32Byte (c : BitVec 32) (b : Byte) : BitVec 32 := Nat.repeat crc32Bit 8 (c ^^^ b.setWidth 32)

/-- The CRC-32: polynomial 0x04C11DB7 reflected, initial 0xFFFFFFFF, final inversion (R22). -/
def crc32 (bs : List Byte) : Word32 := ~~~ (bs.foldl crc32Byte 0xFFFFFFFF)

/-- A CRC-16 as the two bytes that follow what it is over. -/
def crc16Bytes (bs : List Byte) : List Byte := le16 (crc16 bs).toNat

/-! ## Time (log 3) -/

/-- The clock moves to an instant, if it is not yet past it. -/
def State.upTo (s : State) (due : Nat) : State := { s with now := max s.now due }

/-- The instant `us` microseconds from now. -/
def State.inUs (s : State) (us : Nat) : Timer := some (s.now + us)

/-- The instant `ms` milliseconds from now. -/
def State.inMs (s : State) (ms : Nat) : Timer := some (s.now + 1000 * ms)

/-- The instant `sec` seconds from now. -/
def State.inSec (s : State) (sec : Nat) : Timer := some (s.now + 1000000 * sec)

/-- What a timer's expiry does: nothing if the timer is stopped (log 2), else `f` at the instant it is due. -/
def expire (t : Timer) (f : State → State) (s : State) : State :=
  match t with
  | none => s
  | some due => f (s.upTo due)

/-! ## The content of the book store (R133) -/

/-- The byte at an address: what is listed there, else the erased byte (log 5). -/
def memRead (m : Memory) (a : Nat) : Byte :=
  match m.find? (fun c => c.1 == a) with
  | some c => c.2
  | none => Config.erasedByte

/-- `n` bytes from an address upward. -/
def memReadN (m : Memory) (a n : Nat) : List Byte := (List.range n).map fun i => memRead m (a + i)

/-- The listed pairs of bytes stored from an address upward: an erased byte is not listed. -/
def cellsFrom (a : Nat) : List Byte → Memory
  | [] => []
  | b :: bs => if b = Config.erasedByte then cellsFrom (a + 1) bs else (a, b) :: cellsFrom (a + 1) bs

/-- Stores bytes from an address upward. -/
def memWrite (m : Memory) (a : Nat) (bs : List Byte) : Memory :=
  m.filter (fun c => decide (c.1 < a)) ++ cellsFrom a bs ++ m.filter (fun c => decide (a + bs.length ≤ c.1))

/-- Sets `n` bytes from an address upward to the erased byte (R133). -/
def memErase (m : Memory) (a n : Nat) : Memory :=
  m.filter fun c => decide (c.1 < a) || decide (a + n ≤ c.1)

/-- Programs bytes from an address upward: each becomes the AND of old and new (R133). -/
def memProgram (m : Memory) (a : Nat) (bs : List Byte) : Memory :=
  memWrite m a ((memReadN m a bs.length).zipWith (· &&& ·) bs)

/-- `n` free bytes, from the counter `k` (log 6). -/
def freeBytes (k n : Nat) : List Byte := (List.range n).map fun i => Config.freeByte (k + i)

/-- The canonical form: addresses strictly rising, no erased byte listed. -/
def memWf : Memory → Bool
  | [] => true
  | [c] => decide (c.2 ≠ Config.erasedByte)
  | c :: d :: rest => decide (c.2 ≠ Config.erasedByte) && decide (c.1 < d.1) && memWf (d :: rest)

/-! ## Rectangles and tiles -/

/-- A pixel's number. -/
def pixelNum (x y : Nat) : Nat := y * Config.panelWidth + x

/-- A rectangle holds a pixel. -/
def Rect.holds (r : Rect) (k : Nat) : Bool :=
  decide (r.x0 ≤ k % Config.panelWidth) && decide (k % Config.panelWidth ≤ r.x1)
    && decide (r.y0 ≤ k / Config.panelWidth) && decide (k / Config.panelWidth ≤ r.y1)

/-- The part of a rectangle on the panel (R10, R33). -/
def Rect.clip (r : Rect) : Rect :=
  { r with x1 := min r.x1 (Config.panelWidth - 1), y1 := min r.y1 (Config.panelHeight - 1) }

/-- The tile set of a rectangle (R33). -/
def Rect.tileSet (r : Rect) : TileSet :=
  { tx0 := r.x0 / 16, ty0 := r.y0 / 16, tx1 := r.x1 / 16, ty1 := r.y1 / 16 }

/-- The whole panel. -/
def wholePanel : Rect := { x0 := 0, y0 := 0, x1 := 1599, y1 := 1199 }

/-- A tile set holds the tile with a number (100ty + tx). -/
def TileSet.holds (t : TileSet) (k : Nat) : Bool :=
  decide (t.tx0 ≤ k % Config.tileColumns) && decide (k % Config.tileColumns ≤ t.tx1)
    && decide (t.ty0 ≤ k / Config.tileColumns) && decide (k / Config.tileColumns ≤ t.ty1)

/-- Two tile sets share a tile. -/
def TileSet.meets (a b : TileSet) : Bool :=
  decide (a.tx0 ≤ b.tx1) && decide (b.tx0 ≤ a.tx1) && decide (a.ty0 ≤ b.ty1) && decide (b.ty0 ≤ a.ty1)

/-- Tiles of a set (R33). -/
def TileSet.size (t : TileSet) : Nat := (t.tx1 - t.tx0 + 1) * (t.ty1 - t.ty0 + 1)

/-- The bounding rectangle of a tile set (R38). -/
def TileSet.bounds (t : TileSet) : Rect :=
  { x0 := 16 * t.tx0, y0 := 16 * t.ty0, x1 := 16 * t.tx1 + 15, y1 := 16 * t.ty1 + 15 }

/-- The tile with a number lies wholly inside a rectangle (spec/00_scope.md, Tiles). -/
def Rect.wholeTile (r : Rect) (k : Nat) : Bool :=
  decide (r.x0 ≤ 16 * (k % Config.tileColumns)) && decide (16 * (k % Config.tileColumns) + 15 ≤ r.x1)
    && decide (r.y0 ≤ 16 * (k / Config.tileColumns)) && decide (16 * (k / Config.tileColumns) + 15 ≤ r.y1)

/-- Changes every tile by its number, counted from `k`. -/
def mapTiles (f : Nat → Tile → Tile) : Nat → List Tile → List Tile
  | _, [] => []
  | k, t :: ts => f k t :: mapTiles f (k + 1) ts

/-- Some tile, numbered from `k`, passes a test. -/
def anyTile (p : Nat → Tile → Bool) : Nat → List Tile → Bool
  | _, [] => false
  | k, t :: ts => p k t || anyTile p (k + 1) ts

/-! ## Planes (R1, R2, log 8) -/

/-- The level of a pixel. -/
def planeLevel (p : Plane) (k : Nat) : Nat :=
  match p.find? (fun c => c.1 == k) with
  | some c => c.2
  | none => Config.blankLevel

/-- Merges the pair `x`, the rest `xs` of its list and the other list, given how `xs` merges. -/
def mergeStep (x : Nat × Nat) (more : Plane → Plane) (xs : Plane) : Plane → Plane
  | [] => x :: xs
  | y :: ys => if x.1 < y.1 then x :: more (y :: ys) else y :: mergeStep x more xs ys

/-- Merges two lists of pairs with rising pixels into one. -/
def mergeCells : Plane → Plane → Plane
  | [] => fun ys => ys
  | x :: xs => mergeStep x (mergeCells xs) xs

/-- The pairs outside a rectangle. -/
def outside (r : Rect) (p : Plane) : Plane := p.filter fun c => !r.holds c.1

/-- The pairs inside a rectangle. -/
def inside (r : Rect) (p : Plane) : Plane := p.filter fun c => r.holds c.1

/-- The pairs a plane lists: none at the blank level. -/
def notBlank (p : Plane) : Plane := p.filter fun c => c.2 != Config.blankLevel

/-- The plane with a given level at each pixel of the panel. -/
def planeOf (g : Nat → Nat) : Plane :=
  notBlank ((List.range (Config.panelWidth * Config.panelHeight)).map fun k => (k, g k))

/-- Over the rectangle, `dst` takes the levels of `src` (R47). -/
def planeCopy (dst src : Plane) (r : Rect) : Plane := mergeCells (outside r dst) (inside r src)

/-- Over the rectangle, each level is changed by `f` (R43). -/
def planeMap (f : Nat → Nat) (p : Plane) (r : Rect) : Plane :=
  if f Config.blankLevel = Config.blankLevel then
    notBlank (p.map fun c => if r.holds c.1 then (c.1, f c.2) else c)
  else planeOf fun k => if r.holds k then f (planeLevel p k) else planeLevel p k

/-- The pixels of a rectangle that lie on the panel, with their levels, from the pixel (x, y) on; the levels
are in row-major order over the whole rectangle (R10). -/
def cellsOfRect (r : Rect) : Nat → Nat → List Nat → Plane
  | _, _, [] => []
  | x, y, l :: ls =>
    let rest := if x = r.x1 then cellsOfRect r r.x0 (y + 1) ls else cellsOfRect r (x + 1) y ls
    if x < Config.panelWidth ∧ y < Config.panelHeight then (pixelNum x y, l) :: rest else rest

/-- Writes a rectangle's levels over a list of pairs, keeping each pair written (R69). -/
def writeCells (p : Plane) (r : Rect) (levels : List Nat) : Plane :=
  mergeCells (outside r p) (cellsOfRect r r.x0 r.y0 levels)

/-- Writes a rectangle's levels into a plane (R12). -/
def planeWrite (p : Plane) (r : Rect) (levels : List Nat) : Plane :=
  mergeCells (outside r p) (notBlank (cellsOfRect r r.x0 r.y0 levels))

/-- The plane with the written pixels at their levels and every other pixel at the fill level (R70). -/
def planeFill (fill : Nat) (written : Plane) : Plane :=
  if fill = Config.blankLevel then notBlank written
  else planeOf fun k => match written.find? (fun c => c.1 == k) with
    | some c => c.2
    | none => fill

/-! ## Slab holders (R57) -/

/-- Gives the lowest-numbered FREE slab to a holder (log 8). -/
def takeSlab (h : Holder) : List Holder → List Holder
  | [] => []
  | x :: xs => if x = .free then h :: xs else x :: takeSlab h xs

/-- Gives `n` FREE slabs to a holder. -/
def takeSlabs (h : Holder) (n : Nat) (p : List Holder) : List Holder := Nat.repeat (takeSlab h) n p

/-- Passes every slab of one holder to another. -/
def passSlabs (a b : Holder) (p : List Holder) : List Holder := p.map fun x => if x = a then b else x

/-- Passes the lowest-numbered slab of a holder to another: a credit used (R61, log 41). -/
def passSlab (a b : Holder) : List Holder → List Holder
  | [] => []
  | x :: xs => if x = a then b :: xs else x :: passSlab a b xs

/-- Exchanges the slabs of two holders (R60). -/
def swapSlabs (a b : Holder) (p : List Holder) : List Holder :=
  p.map fun x => if x = a then b else if x = b then a else x

/-- Frees the slabs of the holders that pass a test. -/
def freeSlabs (which : Holder → Bool) (p : List Holder) : List Holder :=
  p.map fun x => if which x then .free else x

/-- The holder is a cache entry. -/
def Holder.isEntry : Holder → Bool
  | .entry _ => true
  | _ => false

/-- The holder is a credit. -/
def Holder.isCredit : Holder → Bool
  | .credit _ => true
  | _ => false

/-- The holder is a fetch channel, by a credit or a chunk slab. -/
def Holder.isFetch : Holder → Bool
  | .credit _ => true
  | .chunk _ _ => true
  | _ => false

/-- The holder is the given fetch channel. -/
def Holder.ofChannel (c : Nat) : Holder → Bool
  | .credit d => d == c
  | .chunk d _ => d == c
  | _ => false

end Sys2Proof.Machine
end

