-- ==== Sys2Proof/Machine/Operands.lean ====
section
/-! DEFINITION. Machine/Operands.lean: the code tables of R176, the request kinds with their streams and body
lengths, and the packets of the page link. -/

namespace Sys2Proof.Machine

open Sys2Proof

/-! ## Code tables (R176) -/

/-- Mode codes. -/
def Mode.code : Mode → Nat
  | .clear => 0 | .tone => 1 | .text => 2 | .skim => 3

/-- The mode a code names. -/
def modeOf : Nat → Option Mode
  | 0 => some .clear | 1 => some .tone | 2 => some .text | 3 => some .skim | _ => none

/-- The mode a code names, where SKIM is not allowed (R67, R68). -/
def pageModeOf (n : Nat) : Option Mode :=
  match modeOf n with
  | some .skim => none
  | m => m

/-- List and direction codes. -/
def Dir.code : Dir → Nat
  | .forward => 0 | .back => 1

/-- The list or direction a code names. -/
def dirOf : Nat → Option Dir
  | 0 => some .forward | 1 => some .back | _ => none

/-- Response codes. -/
def Code.code : Code → Nat
  | .ok => 0 | .full => 1 | .range => 2 | .state => 3 | .room => 4 | .inUse => 5 | .shielded => 6
  | .unknown => 7 | .length => 8 | .timeout => 9 | .fault => 10 | .lowSupply => 11

/-- Key codes, by the key. -/
def keyCode : Key → Nat
  | .fwd => 0 | .back => 1 | .light => 2 | .power => 3

/-- Key event codes. -/
def KeyEvent.code : KeyEvent → Nat
  | .press => 0 | .long => 1 | .release => 2

/-- Light state codes. -/
def LightState.code : LightState → Nat
  | .off => 0 | .ramping => 1 | .steady => 2 | .cut => 3

/-- Power state codes. -/
def PowerState.code : PowerState → Nat
  | .starting => 0 | .active => 1 | .doze => 2 | .draining => 3 | .sleep => 4

/-- Wake source codes. -/
def WakeSource.code : WakeSource → Nat
  | .fwd => 1 | .back => 2 | .light => 3 | .power => 4 | .radio => 5 | .timer => 6 | .host => 7

/-- The code of a last wake source, which has its own code for none. -/
def lastWakeCode : Option WakeSource → Nat
  | none => 0
  | some w => w.code

/-- Boot outcome codes. -/
def BootOutcome.code : BootOutcome → Nat
  | .loaded => 0 | .partly => 1 | .defaults => 2 | .warm => 3

/-- Drain condition codes. -/
def DrainCond.code : DrainCond → Nat
  | .inbound => 0 | .lanes => 1 | .queue => 2 | .held => 3 | .store => 4 | .chunks => 5 | .reception => 6
  | .light => 7

/-- Flash state codes. -/
def FlashState.code : FlashState → Nat
  | .idle => 0 | .claiming => 1 | .running => 2 | .suspending => 3 | .suspended => 4 | .resetting => 5
  | .offline => 6 | .lowPower => 7

/-- Chunk state codes. -/
def ChunkState.code : ChunkState → Nat
  | .missing => 0 | .staged => 1 | .writing => 2 | .stored => 3 | .bad => 4

/-- Channel state codes (12.4). -/
def ChanState.code : ChanState → Nat
  | .closed => 0 | .loading => 1 | .armed => 2 | .finished => 3 | .failed => 4 | .closing => 5

/-- Failure reason codes, which have their own code for absent (12.4). -/
def failCode : Option FailReason → Nat
  | none => 0
  | some .repeatedBad => 1
  | some .refetchFull => 2
  | some .storeFault => 3

/-- Claimant codes. -/
def Claimant.code : Claimant → Nat
  | .engine => 0 | .store => 1

/-- Completion status codes (12.4). -/
def Status.code : Status → Nat
  | .done => 0 | .aborted => 1 | .noWaveform => 2 | .lowSupply => 3

/-- Miss reason codes, which have their own code for none (12.4). -/
def missCode : Option Miss → Nat
  | none => 0
  | some .empty => 1
  | some .notReady => 2
  | some .busy => 3
  | some .dirty => 4
  | some .full => 5

/-- Turn source codes (12.4). -/
def Source.code : Source → Nat
  | .key => 0 | .host => 1 | .run => 2

/-- Position of a notice kind: its packet kind is 0x90 more (12.2), its bit in wake_set this one (R173). -/
def NoticeKind.index : NoticeKind → Nat
  | .done => 0 | .key => 1 | .turn => 2 | .temp => 3 | .light => 4 | .budget => 5 | .fetch => 6 | .power => 7
  | .link => 8

/-- Every notice kind, in order. -/
def allNotices : List NoticeKind := [.done, .key, .turn, .temp, .light, .budget, .fetch, .power, .link]

/-! ## Request kinds (R166, 12.2) -/

/-- The packet kind of a request. -/
def ReqKind.code : ReqKind → Nat
  | .pixels => 0x10 | .toneMap => 0x11 | .update => 0x12 | .abort => 0x13 | .pageTag => 0x14
  | .cacheOpen => 0x15 | .cacheReady => 0x16 | .cacheDrop => 0x17 | .turn => 0x18 | .waveBegin => 0x19
  | .waveData => 0x1A | .waveEnd => 0x1B | .waveDrop => 0x1C | .bands => 0x1D
  | .light => 0x20 | .follow => 0x21
  | .fetchOpen => 0x30 | .fetchSums => 0x31 | .fetchArm => 0x32 | .fetchClose => 0x33 | .fetchStatus => 0x34
  | .storeRead => 0x38 | .storeProgram => 0x39 | .storeErase => 0x3A
  | .set => 0x40 | .get => 0x41 | .status => 0x42 | .limits => 0x43 | .doze => 0x44 | .sleep => 0x45
  | .wake => 0x46

/-- Every request kind. -/
def allReqKinds : List ReqKind :=
  [.pixels, .toneMap, .update, .abort, .pageTag, .cacheOpen, .cacheReady, .cacheDrop, .turn, .waveBegin,
   .waveData, .waveEnd, .waveDrop, .bands, .light, .follow, .fetchOpen, .fetchSums, .fetchArm, .fetchClose,
   .fetchStatus, .storeRead, .storeProgram, .storeErase, .set, .get, .status, .limits, .doze, .sleep, .wake]

/-- The request kind a packet kind names. -/
def reqKindOf (n : Nat) : Option ReqKind := allReqKinds.find? fun k => k.code == n

/-- The stream of a request kind (R166). -/
def ReqKind.stream : ReqKind → Stream
  | .light | .follow => .light
  | .fetchOpen | .fetchSums | .fetchArm | .fetchClose | .fetchStatus => .fetch
  | .storeRead | .storeProgram | .storeErase => .store
  | .set | .get | .status | .limits | .doze | .sleep | .wake => .control
  | _ => .display

/-- The body lengths the link allows for a request kind (12.2). -/
def ReqKind.lengthOk (k : ReqKind) (n : Nat) : Bool :=
  match k with
  | .pixels => decide (10 ≤ n) && decide (n ≤ 4106)
  | .toneMap => n == 256
  | .update => n == 12
  | .abort => n == 3
  | .pageTag => n == 5
  | .cacheOpen => n == 7
  | .cacheReady => n == 1
  | .cacheDrop => n == 2
  | .turn => n == 1
  | .waveBegin => n == 4
  | .waveData => decide (1 ≤ n) && decide (n ≤ 4097)
  | .waveEnd => n == 4
  | .waveDrop => n == 2
  | .bands => decide (2 ≤ n) && decide (n ≤ 24) && n % 2 == 0
  | .light => n == 3
  | .follow => decide (1 ≤ n) && decide (n ≤ 33) && n % 4 == 1
  | .fetchOpen => n == 13
  | .fetchSums => decide (3 ≤ n) && decide (n ≤ 4160) && n % 4 == 3
  | .fetchArm => n == 1
  | .fetchClose => n == 1
  | .fetchStatus => n == 1
  | .storeRead => n == 6
  | .storeProgram => decide (4 ≤ n) && decide (n ≤ 4100)
  | .storeErase => n == 2
  | .set => n == 5
  | .get => n == 1
  | .status => n == 0
  | .limits => decide (n ≤ 32) && n % 4 == 0
  | .doze => n == 0
  | .sleep => n == 5
  | .wake => n == 0

/-! ## Packets (R165, 12.2) -/

/-- A packet: kind, tag, body length, body and CRC-16. -/
def packet (kind tag : Byte) (body : List Byte) : List Byte :=
  let head := kind :: tag :: le16 body.length ++ body
  head ++ crc16Bytes head

/-- The packet of a response: kind 0x80, the request's tag, then its kind, the code and the owner's body. -/
def Response.packet (r : Response) : List Byte :=
  Machine.packet 0x80 r.tag (r.kindByte :: byteOf r.code.code :: r.body)

/-- The EMPTY packet (R169). -/
def emptyPacket : List Byte := packet 0xFF 0 []

/-- A list in a notice body or a STATUS section: a one-byte count of its items, then the items (R176). -/
def listBytes (items : List (List Byte)) : List Byte := byteOf items.length :: items.flatten

/-! ## Pixels and levels (R10, R16) -/

/-- The two levels of a LEVEL4 byte, high half first. -/
def halves (b : Byte) : List Nat := [b.toNat / 16, b.toNat % 16]

/-- A PIXELS payload converted to levels (R10). -/
def levelsOf (toneMap : List Nat) (level4 : Bool) (n : Nat) (payload : List Byte) : List Nat :=
  if level4 then (payload.flatMap halves).take n else payload.map fun b => toneMap.getD b.toNat 0

/-- The level a target level becomes at the start of a lane (R16, R43). -/
def modeLevel (skimThreshold : Nat) (m : Mode) (l : Nat) : Nat :=
  match m with
  | .text => 5 * ((l + 2) / 5)
  | .skim => if skimThreshold ≤ l then 15 else 0
  | _ => l

/-- Drive actions (2.2). -/
inductive Drive where
  | hold | darken | lighten
  deriving DecidableEq, Repr

/-- The element of a phase unit for a pair of levels (12.6); code 3 drives as HOLD (R176). -/
def phaseElement (unit : List Byte) (from_ to_ : Nat) : Drive :=
  match (byteAt unit (4 * from_ + to_ / 4) / 4 ^ (to_ % 4)) % 4 with
  | 1 => .darken
  | 2 => .lighten
  | _ => .hold

end Sys2Proof.Machine
end

