-- ==== Sys2Proof/Machine/Flags.lean ====
section
/-! DEFINITION. Machine/Flags.lean: what the rules compute from the state: settings in force, slab counts, the three
lines, freshness, the state of the light, grants, the drain conditions, the drive element of a pixel. -/

namespace Sys2Proof.Machine

open Sys2Proof

/-! ## Settings (R173) -/

/-- The value in force of a setting. -/
def State.setting (s : State) (st : Setting) : Int := s.settings.getD ((settingRow st).number - 1) 0

/-- The value in force of a setting that is never negative. -/
def State.settingNat (s : State) (st : Setting) : Nat := (s.setting st).toNat

/-! ## Page memory (R57, R59) -/

/-- Slabs held by FREE. -/
def State.freeCount (s : State) : Nat := s.pool.countP fun h => h == .free

/-- Slabs of all cache entries. -/
def State.cacheHeld (s : State) : Nat := s.pool.countP Holder.isEntry

/-- Credits and chunk slabs of all channels. -/
def State.fetchHeld (s : State) : Nat := s.pool.countP Holder.isFetch

/-- Credits of one channel (R112). -/
def State.credits (s : State) (c : Nat) : Nat := s.pool.countP fun h => h == .credit c

/-- available_to_cache (R59). -/
def State.availableToCache (s : State) : Nat :=
  s.freeCount - (s.settingNat .fetchFloor - s.fetchHeld)

/-- available_to_fetch (R59). -/
def State.availableToFetch (s : State) : Nat :=
  s.freeCount - (s.settingNat .cacheFloor - s.cacheHeld)

/-! ## Power states and lines -/

/-- The part is ACTIVE, DOZE or DRAINING. -/
def PowerState.awake : PowerState → Bool
  | .active | .doze | .draining => true
  | _ => false

/-- READY (R164). -/
def State.ready (s : State) : Bool :=
  s.pow.state.awake && s.pow.exit.isNone && !s.pow.resetLow && decide (s.link.opened < 16)

/-- CREDIT: some channel holds a credit (R120). -/
def State.creditLine (s : State) : Bool := s.pool.any Holder.isCredit

/-- A notice of the kind is waiting in the outbound queue (R170). -/
def State.noticeWaits (s : State) (k : NoticeKind) : Bool :=
  s.link.out.any fun i => match i with
    | .waiting j => j == k
    | _ => false

/-- The kind is in wake_set (R173). -/
def State.inWakeSet (s : State) (k : NoticeKind) : Bool := (s.settingNat .wakeSet).testBit k.index

/-- A waiting notice of the kind is a wake notice (R158). -/
def State.isWakeNotice (s : State) (k : NoticeKind) : Bool :=
  match k with
  | .key => s.inWakeSet .key || s.keys.records.any fun r => r.key == .power
  | .power => s.pow.events.getLsbD 5 || (s.inWakeSet .power && s.pow.events != 2)
  | k => s.inWakeSet k

/-- A packet of the outbound queue raises ATTN while the host sleeps (R158). A built notice is no longer a waiting
one (R170). -/
def State.raisesAttn (s : State) : OutItem → Bool
  | .response _ => true
  | .waiting k => s.isWakeNotice k
  | .built _ _ => false

/-- ATTN (R158). -/
def State.attn (s : State) : Bool :=
  match s.pow.state with
  | .starting => false
  | .active => !s.link.out.isEmpty
  | _ => s.link.out.any s.raisesAttn

/-! ## Temperature (R27, R29) -/

/-- The held reading is fresh (R29). -/
def State.fresh? (s : State) : Bool :=
  match s.wav.reading with
  | none => false
  | some (_, taken) => decide (s.now - taken < 1000000 * s.settingNat .tempMaxAgeS)

/-- Units of waveform memory that no record holds (R19). -/
def State.freeUnits (s : State) : Nat :=
  Config.phaseUnits - (s.wav.waves.map fun w => w.phases.length).sum

/-- The INSTALLED record of a slot (R18). -/
def State.slot (s : State) (m : Mode) (b : Nat) : Option Wave :=
  s.wav.waves.find? fun w => w.state == .installed && w.mode == m && w.band == b

/-- The open load (R20). -/
def State.openLoad (s : State) : Option Wave := s.wav.waves.find? fun w => w.state == .loading

/-- A waveform is in use (R17). -/
def Wave.inUse (w : Wave) : Bool := decide (0 < w.lanes) || w.claimed

/-! ## Update engine -/

/-- Occupied lanes (R34). -/
def State.lanesOccupied (s : State) : Nat := s.eng.lanes.countP Option.isSome

/-- Some lane drives (3.6). -/
def State.drives (s : State) : Bool := s.eng.lanes.any Option.isSome

/-- The count of R34 allows admission. -/
def State.admits (s : State) : Bool :=
  decide (s.eng.queue.length < 32)
    && decide (s.eng.queue.length + s.lanesOccupied + s.eng.completions.length < 48)

/-- A tile of the set has an owner (R12, R36). -/
def State.owned (s : State) (t : TileSet) : Bool :=
  anyTile (fun k tile => t.holds k && tile.owner.isSome) 0 s.img.tiles

/-- Some tile is pending (R72). -/
def State.anyPending (s : State) : Bool := anyTile (fun _ tile => tile.pending) 0 s.img.tiles

/-- The update with a number is in the queue or on a lane (R81). -/
def State.updateLives (s : State) (num : Nat) : Bool :=
  s.eng.queue.any (fun e => e.num == num)
    || s.eng.lanes.any fun l => match l with
      | some lane => lane.num == num
      | none => false

/-- Tile set of a held packet: of its clipped rectangle (R10). -/
def HeldPacket.tiles (p : HeldPacket) : TileSet := p.rect.clip.tileSet

/-- Bytes a held packet occupies (R13). -/
def HeldPacket.size (p : HeldPacket) : Nat := p.payload + 16

/-- Bytes of the held-write list in use (R13). -/
def State.heldBytes (s : State) : Nat := (s.img.held.map HeldPacket.size).sum

/-- The drive element that a pixel receives in the frame now running (R46). -/
def State.drive (s : State) (k : Nat) : Drive :=
  let lane := s.eng.lanes.findSome? fun l => match l with
    | some lane => if lane.region.holds k && decide (0 < lane.phase) && s.eng.supply == .on then some lane else none
    | none => none
  match lane with
  | none => .hold
  | some lane =>
    match s.wav.waves.find? fun w => w.num == lane.wave with
    | none => .hold
    | some w => phaseElement (w.phases.getD (lane.phase - 1) []) (planeLevel s.img.shown k) (planeLevel s.img.target k)

/-! ## Supply budget (R104) -/

/-- The grant of a lane. -/
def laneGrant : Option Lane → Nat
  | some l => l.grant
  | none => 0

/-- Every grant but the light's (R104). -/
def State.others (s : State) : Nat :=
  (s.eng.lanes.map laneGrant).sum + s.eng.base.getD 0 + s.store.grant.getD 0

/-- All grants (R104). -/
def State.total (s : State) : Nat := s.others + s.light.grant

/-- The supply limit for a voltage (R103): the points are in rising mV, the first already below `v`. -/
def limitFrom : Nat × Nat → List (Nat × Nat) → Nat → Nat
  | p, [], _ => p.2
  | p, q :: rest, v =>
    if v < q.1 then
      ((p.2 : Int) + (((v : Int) - p.1) * ((q.2 : Int) - p.2)) / ((q.1 : Int) - p.1)).toNat
    else limitFrom q rest v

/-- The supply limit for a voltage (R103). -/
def limitFor (table : List (Nat × Nat)) (v : Nat) : Nat :=
  match table with
  | [] => 0
  | p :: rest => if v ≤ p.1 then p.2 else limitFrom p rest v

/-- The filtered value of a full filter (R100). -/
def filteredValue (filter : List Nat) : Nat := filter.sum / 8

/-- The battery voltage in mV (R100). -/
def batteryMv (filter : List Nat) : Nat := (filteredValue filter * 5000 + 2048) / 4096

/-! ## Front light (R86, R89, R94) -/

/-- The state of the light, judged from its record (R86). -/
def FrontLight.judged (l : FrontLight) : LightState :=
  if l.grant < l.claim then .cut
  else if l.level = 0 ∧ l.levelTarget = 0 then .off
  else if l.level ≠ l.levelTarget ∨ l.warmth ≠ l.warmthTarget then .ramping
  else .steady

/-- The total current the level calls for, in µA (R89 step 1). -/
def State.lightTotalUa (s : State) : Nat := s.settingNat .lightMaxUa * (s.light.level * s.light.level) / 1000000

/-- The claim of the level current, in mA: rounded up (R89 step 2). -/
def State.lightClaimMa (s : State) : Nat := (s.lightTotalUa + 999) / 1000

/-- The effective current (R89 step 3). -/
def State.lightEffUa (s : State) : Nat := min s.lightTotalUa (s.light.grant * 1000)

/-- The warm channel's current (R89 step 4). -/
def State.warmUa (s : State) : Nat := s.lightEffUa * s.light.warmth / 255

/-- The cool channel's current (R89 step 4). -/
def State.coolUa (s : State) : Nat := s.lightEffUa - s.warmUa

/-- A channel's duty (R89 step 5). -/
def dutyOf (ua full : Nat) : Nat := min 4095 (ua * 4096 / full)

/-- The duty R89 gives WARM. -/
def State.warmDutyNow (s : State) : Nat := dutyOf s.warmUa (s.settingNat .warmFullUa)

/-- The duty R89 gives COOL. -/
def State.coolDutyNow (s : State) : Nat := dutyOf s.coolUa (s.settingNat .coolFullUa)

/-- The follow level between the points of the table: the points are in rising lux (R94). -/
def followFrom : Nat × Nat → List (Nat × Nat) → Nat → Nat
  | p, [], _ => p.2
  | p, q :: rest, lux =>
    if lux < q.1 then
      ((p.2 : Int) + (((lux : Int) - p.1) * ((q.2 : Int) - p.2)) / ((q.1 : Int) - p.1)).toNat
    else followFrom q rest lux

/-- The follow level for a reading in lux (R94). -/
def followLevel (table : List (Nat × Nat)) (lux : Nat) : Nat :=
  match table with
  | [] => 0
  | p :: rest => if lux ≤ p.1 then p.2 else followFrom p rest lux

/-- The distance of two levels. -/
def levelGap (a b : Nat) : Nat := (a - b) + (b - a)

/-! ## Fetch channels (R113, R119) -/

/-- Bytes of a chunk by the manifest's chunk size. -/
def Manifest.chunkBytes (m : Manifest) : Nat := m.chunkKiB * 1024

/-- The expected length of a chunk (R113). -/
def Manifest.expected (m : Manifest) (i : Nat) : Nat :=
  if i + 1 = m.count then m.length - (m.count - 1) * m.chunkBytes else m.chunkBytes

/-- The store address of a chunk (R113). -/
def Manifest.address (m : Manifest) (i : Nat) : Nat := m.base + i * m.chunkBytes

/-- The sector of a chunk (R113). -/
def Manifest.sector (m : Manifest) (i : Nat) : Nat := m.address i / Config.sectorBytes

/-- The first sector of the store range (R113). -/
def Manifest.first (m : Manifest) : Nat := m.base / Config.sectorBytes

/-- The last sector of the store range (R113). -/
def Manifest.last (m : Manifest) : Nat := (m.base + m.length - 1) / Config.sectorBytes

/-- A fetch channel's record by its number. -/
def State.channel (s : State) (c : Nat) : Channel := s.fetch.channels.getD c .reset

/-- A chunk of a channel. -/
def Channel.chunk (ch : Channel) (i : Nat) : Chunk :=
  ch.chunks.getD i { state := .missing, bad := 0, retry := false, payload := [] }

/-- An index lies in the channel's window (R119). -/
def Channel.inWindow (ch : Channel) (i : Nat) : Bool :=
  match ch.manifest with
  | none => false
  | some m => decide (ch.pfx ≤ i) && decide (i < ch.pfx + m.window) && decide (i < m.count)

/-- The index of the frame in reception for a channel. -/
def State.receiving (s : State) (c i : Nat) : Bool :=
  match s.fetch.reception with
  | some r => r.channel == c && r.index == i
  | none => false

/-- The indices of the channel's window (R119). -/
def Channel.window (ch : Channel) : List Nat :=
  match ch.manifest with
  | none => []
  | some m => ((List.range m.window).map fun i => ch.pfx + i).filter fun i => decide (i < m.count)

/-- How many indices of the window are MISSING or BAD and not in reception (R119). -/
def State.windowWants (s : State) (c : Nat) : Nat :=
  (s.channel c).window.countP fun i =>
    !s.receiving c i
      && (((s.channel c).chunk i).state == .missing || ((s.channel c).chunk i).state == .bad)

/-- The channel may be granted a credit: it is ARMED and its window room is above 0 (R119, R120). -/
def State.wantsCredit (s : State) (c : Nat) : Bool :=
  (s.channel c).state == .armed && decide (s.credits c < s.windowWants c)

/-- The number of leading STORED chunks (R129). -/
def leadingStored (chunks : List Chunk) : Nat := (chunks.takeWhile fun k => k.state == .stored).length

/-- The four channels in cyclic order, starting after `c` (R120, R126). -/
def channelsAfter (c : Nat) : List Nat := [(c + 1) % 4, (c + 2) % 4, (c + 3) % 4, (c + 4) % 4]

/-- A sector lies in the store range of a channel that is not CLOSED (R112, R135). -/
def State.sectorInUse (s : State) (sector : Nat) : Bool :=
  s.fetch.channels.any fun ch => ch.state != .closed && match ch.manifest with
    | some m => decide (m.first ≤ sector) && decide (sector ≤ m.last)
    | none => false

/-! ## Book store (R138, R139) -/

/-- The operation is the host's. -/
def Op.isHost (o : Op) : Bool :=
  match o.source with
  | .host _ => true
  | _ => false

/-- The operation is a READ. -/
def Op.isRead (o : Op) : Bool :=
  match o.kind with
  | .read _ _ => true
  | _ => false

/-- First address and length of an operation's range. -/
def Op.span (o : Op) : Nat × Nat :=
  match o.kind with
  | .read a n => (a, n)
  | .program a d => (a, d.length)
  | .erase sec => (sec * Config.sectorBytes, Config.sectorBytes)

/-- Two operations' ranges meet. -/
def Op.touches (o p : Op) : Bool :=
  decide (o.span.1 < p.span.1 + p.span.2) && decide (p.span.1 < o.span.1 + o.span.2)

/-- An older PROGRAM or ERASE that blocks a READ (R139). -/
def Op.blocks (older o : Op) : Bool :=
  !older.isRead && decide (older.arrival < o.arrival) && older.touches o

/-- The operation is at the flash: running, suspending or suspended (R138). -/
def FlashState.atFlash : FlashState → Bool
  | .running | .suspending | .suspended => true
  | _ => false

/-- A READ of the queue is blocked (R139). -/
def State.readBlocked (s : State) (o : Op) : Bool :=
  s.store.queue.any (fun older => older.blocks o)
    || (s.store.flash.atFlash && match s.store.op with
      | some older => older.blocks o
      | none => false)

/-- A READ that may be served (R139). -/
def State.servable (s : State) (o : Op) : Bool := o.isRead && !s.readBlocked o

/-- The reads of a batch that wait for the flash: every one but the one at the flash (R143). They have not been
selected, so they are entries of the queue still (R136, R144, log 36). -/
def Store.batchWaiting (st : Store) : List Op := st.batch.tail

/-- Operations in the queue (R136, R138). -/
def State.queuedOps (s : State) : Nat := s.store.queue.length + s.store.batchWaiting.length

/-- Host operations in the queue (R136). -/
def State.hostOps (s : State) : Nat := s.store.queue.countP Op.isHost + s.store.batchWaiting.countP Op.isHost

/-! ## Keys -/

/-- The key clock: ms since it last restarted, 32 bits (R78). -/
def State.keyClock (s : State) : Nat := (s.now - s.keys.epoch) / 1000 % 4294967296

/-- A key's scanner state. -/
def Scanner.key (k : Scanner) : Key → KeyScan
  | .fwd => k.fwd
  | .back => k.back
  | .light => k.light
  | .power => k.power

/-- Sets a key's scanner state. -/
def Scanner.setKey (k : Scanner) (key : Key) (v : KeyScan) : Scanner :=
  match key with
  | .fwd => { k with fwd := v }
  | .back => { k with back := v }
  | .light => { k with light := v }
  | .power => { k with power := v }

/-- Turns are enabled in local_keys (R80). -/
def State.turnsEnabled (s : State) : Bool := (s.settingNat .localKeys).testBit 0

/-- The LIGHT toggle is enabled in local_keys (R80). -/
def State.toggleEnabled (s : State) : Bool := (s.settingNat .localKeys).testBit 1

/-- The direction of a page key (R80). -/
def keyDir : Key → Option Dir
  | .fwd => some .forward
  | .back => some .back
  | _ => none

/-! ## Drain conditions (R151) -/

/-- One of the eight drain conditions holds (R151). -/
def State.drainHolds (s : State) : DrainCond → Bool
  | .inbound => s.link.inbound.isEmpty
  | .lanes => !s.drives
  | .queue => s.eng.queue.isEmpty
  | .held => s.img.held.isEmpty
  | .store => s.store.queue.isEmpty && (s.store.flash == .idle || s.store.flash == .offline)
  | .chunks => !(s.fetch.channels.any fun ch =>
      ch.chunks.any fun k => k.state == .staged || k.state == .writing)
  | .reception => s.fetch.reception.isNone
  | .light => s.light.judged == .off

/-- The eight conditions, in the order they are judged (R151). -/
def drainOrder : List DrainCond := [.inbound, .lanes, .queue, .held, .store, .chunks, .reception, .light]

/-- All eight conditions hold. -/
def State.drained (s : State) : Bool := drainOrder.all s.drainHolds

/-- The first unmet condition (R152). -/
def State.firstUnmet (s : State) : Option DrainCond := drainOrder.find? fun c => !s.drainHolds c

/-- The radio port is open: ACTIVE, DOZE or DRAINING (R121). -/
def State.radioOpen (s : State) : Bool := s.pow.state.awake

end Sys2Proof.Machine
end

