-- ==== Sys2Proof/Machine/Notify.lean ====
section
/-! DEFINITION. Machine/Notify.lean: responses, notice triggers, moderation and the recording of events
(R168, R170 to R172). -/

namespace Sys2Proof.Machine

open Sys2Proof

/-- A packet joins the tail of the outbound queue (R169). -/
def State.addOut (s : State) (i : OutItem) : State := { s with link := { s.link with out := s.link.out ++ [i] } }

/-- A request's response is created (R168). -/
def respond (r : Request) (code : Code) (body : List Byte) (s : State) : State :=
  s.addOut (.response { kindByte := byteOf r.kind.code, tag := r.tag, code := code, body := body })

/-- A trigger remembered in the merged count, which stops at 255 (R170). -/
def mergeTrigger (k : NoticeKind) (s : State) : State :=
  { s with link := { s.link with
      merged := s.link.merged.modify k.index fun n => min 255 (n + 1) } }

/-- A trigger of a kind that is not moderated (R170). -/
def trigger (k : NoticeKind) (s : State) : State :=
  if s.noticeWaits k then mergeTrigger k s else s.addOut (.waiting k)

/-- The notice kind of a moderation record. -/
def moderatedKind : Moderated → NoticeKind
  | .done => .done
  | .fetch => .fetch

/-- A moderation record (R171). -/
def State.moderation (s : State) : Moderated → Moderation
  | .done => s.link.doneMod
  | .fetch => s.link.fetchMod

/-- Sets a moderation record. -/
def State.setModeration (s : State) (m : Moderated) (v : Moderation) : State :=
  match m with
  | .done => { s with link := { s.link with doneMod := v } }
  | .fetch => { s with link := { s.link with fetchMod := v } }

/-- The count setting of a moderated kind. -/
def State.countSetting (s : State) : Moderated → Nat
  | .done => s.settingNat .doneCount
  | .fetch => s.settingNat .fetchCount

/-- The settle setting of a moderated kind. -/
def State.settleSetting (s : State) : Moderated → Nat
  | .done => s.settingNat .doneSettleMs
  | .fetch => s.settingNat .fetchSettleMs

/-- The absolute setting of a moderated kind. -/
def State.absoluteSetting (s : State) : Moderated → Nat
  | .done => s.settingNat .doneAbsoluteMs
  | .fetch => s.settingNat .fetchAbsoluteMs

/-- A moderated notice is created: the count returns to 0 and both timers stop (R171). -/
def createModerated (m : Moderated) (s : State) : State :=
  (s.setModeration m .reset).addOut (.waiting (moderatedKind m))

/-- A DONE or FETCH trigger (R171). A timer armed for 0 ms expires in the event that arms it. -/
def moderatedTrigger (m : Moderated) (s : State) : State :=
  if s.noticeWaits (moderatedKind m) then mergeTrigger (moderatedKind m) s
  else
    let n := (s.moderation m).count + 1
    if s.countSetting m ≤ n ∨ s.settleSetting m = 0 ∨ (n = 1 ∧ s.absoluteSetting m = 0) then
      createModerated m s
    else
      s.setModeration m
        { count := n,
          settle := s.inMs (s.settleSetting m),
          absolute := if n = 1 then s.inMs (s.absoluteSetting m) else (s.moderation m).absolute }

/-- A forced point (R171). -/
def forcedTrigger (m : Moderated) (s : State) : State :=
  if s.noticeWaits (moderatedKind m) then mergeTrigger (moderatedKind m) s else createModerated m s

/-- An expiry of a moderation timer while the count is above 0 (R171). -/
def moderationExpiry (m : Moderated) (t : Timer) (s : State) : State :=
  expire t (fun s => if (s.moderation m).count = 0 then s else createModerated m s) s

/-! ## Recorded events, each a trigger -/

/-- Records a TEMP event: 0 BAND_CHANGED, 1 LEFT_RANGE, 2 ENTERED_RANGE, 3 SENSOR_FAULT (R30). -/
def recordTemp (k : Nat) (s : State) : State :=
  trigger .temp { s with wav := { s.wav with events := setEvent s.wav.events k } }

/-- Records a LIGHT event: 0 TARGET_REACHED, 1 CUT_ENTERED, 2 CUT_LEFT (R96). -/
def recordLight (k : Nat) (s : State) : State :=
  trigger .light { s with light := { s.light with events := setEvent s.light.events k } }

/-- Records a BUDGET event: 0 CUT, 1 RESTORED (R110). -/
def recordBudget (k : Nat) (s : State) : State :=
  trigger .budget { s with sup := { s.sup with events := setEvent s.sup.events k } }

/-- Records a POWER event: 0 START, 1 ENTERED, 2 SLEEP_FAILED, 3 SLEEP_CANCELLED, 4 TIMER, 5 BATTERY_LOW
(R157). -/
def recordPower (k : Nat) (s : State) : State :=
  trigger .power { s with pow := { s.pow with events := setEvent s.pow.events k } }

/-- Records a LINK event: 0 CRC, 1 FRAMING, 2 NOT_READY; the counts stop at 65,535 (R172). -/
def recordLink (k : Nat) (s : State) : State :=
  trigger .link { s with link := { s.link with
    crc := if k = 0 then min 65535 (s.link.crc + 1) else s.link.crc,
    framing := if k = 1 then min 65535 (s.link.framing + 1) else s.link.framing,
    notReady := if k = 2 then min 65535 (s.link.notReady + 1) else s.link.notReady,
    events := setEvent s.link.events k } }

/-- Records an event of a fetch channel: 0 PREFIX_REACHED, 1 FINISHED, 2 FAILED, 3 CLOSED (R130). The trigger is the
caller's. -/
def Channel.recordEvent (ch : Channel) (k : Nat) : Channel := { ch with events := setEvent ch.events k }

/-- Appends a completion record, which is a DONE trigger; the list reaching 48 forces the notice (R51, R52, R171,
log 19). -/
def appendCompletion (c : Completion) (s : State) : State :=
  let s1 := moderatedTrigger .done { s with eng := { s.eng with completions := s.eng.completions ++ [c] } }
  if 48 ≤ s1.eng.completions.length ∧ s1.noticeWaits .done = false then createModerated .done s1 else s1

/-- Appends a turn record, or sets the lost mark when the list is full (R77). -/
def appendTurn (r : TurnRecord) (s : State) : State :=
  if s.cache.records.length < 16 then
    trigger .turn { s with cache := { s.cache with records := s.cache.records ++ [r] } }
  else { s with cache := { s.cache with lost := true } }

/-- Appends a key event record, or sets the lost mark when the list is full (R79). -/
def appendKey (key : Key) (e : KeyEvent) (s : State) : State :=
  if s.keys.records.length < 16 then
    trigger .key { s with keys := { s.keys with
      records := s.keys.records ++ [{ key := key, event := e, time := s.keyClock }] } }
  else { s with keys := { s.keys with lost := true } }

end Sys2Proof.Machine
end

