-- ==== Sys2Proof/Machine/Convert.lean ====
section
/-! DEFINITION. Machine/Convert.lean: the converter's choice (R31), the requests for conversions (R28), and the band
and range arithmetic of a temperature reading (R27 to R29). -/

namespace Sys2Proof.Machine

open Sys2Proof

/-- The request flag of a channel. -/
def Converter.flag (c : Converter) : Chan → Bool
  | .temp => c.temp
  | .batt => c.batt
  | .amb => c.amb

/-- Sets or clears the request flag of a channel. -/
def Converter.setFlag (c : Converter) (ch : Chan) (v : Bool) : Converter :=
  match ch with
  | .temp => { c with temp := v }
  | .batt => { c with batt := v }
  | .amb => { c with amb := v }

/-- The channels in cyclic order, starting with the one after the last served (R31). -/
def chansAfter : Chan → List Chan
  | .temp => [.batt, .amb, .temp]
  | .batt => [.amb, .temp, .batt]
  | .amb => [.temp, .batt, .amb]

/-- An idle, powered converter begins the conversion of the first requested channel, which takes 200 µs (R31). -/
def convKick (s : State) : State :=
  if s.conv.powered = true ∧ s.conv.busy = none then
    match (chansAfter s.conv.last).find? s.conv.flag with
    | none => s
    | some c => { s with conv := { s.conv.setFlag c false with busy := some (c, s.now + 200) } }
  else s

/-- An owner asks for a conversion (R31). -/
def convRequest (c : Chan) (s : State) : State := convKick { s with conv := s.conv.setFlag c true }

/-- The channel is being converted. -/
def State.converting (s : State) (c : Chan) : Bool :=
  match s.conv.busy with
  | some (d, _) => d == c
  | none => false

/-- The waveform store asks for a TEMP conversion, unless one is requested or running (R28). -/
def tempRequest (s : State) : State :=
  if s.conv.temp || s.converting .temp then s else convRequest .temp s

/-- The update engine's demand, which requests nothing while the fault flag is set (R28). -/
def tempDemand (s : State) : State := if s.wav.fault then s else tempRequest s

/-- The band whose range contains `t` (R26, R27). -/
def bandOf (t : BandTable) (temp : Int) : Nat := (t.bounds.filter fun b => decide (b ≤ temp)).length

/-- Moves a band until neither move of R27 applies. `fuel` bounds the moves by the band count. -/
def moveBand (t : BandTable) (temp : Int) : Nat → Nat → Nat
  | 0, k => k
  | fuel + 1, k =>
    if k + 1 < t.count ∧ t.bounds.getD k 0 + t.hyst ≤ temp then moveBand t temp fuel (k + 1)
    else if 0 < k ∧ temp < t.bounds.getD (k - 1) 0 - t.hyst then moveBand t temp fuel (k - 1)
    else k

/-- The band after a good reading (R27). -/
def bandAfter (t : BandTable) (band : Option Nat) (temp : Int) : Nat :=
  match band with
  | none => bandOf t temp
  | some k => moveBand t temp t.count k

/-- The temperature in dd of a raw value (R28). -/
def temperatureOf (raw : Nat) : Int := ((raw * 1650 / 4096 : Nat) : Int) - 500

/-- A good reading moves the band, and a change is recorded (R27). -/
def applyBand (temp : Int) (s : State) : State :=
  let b := some (bandAfter s.wav.table s.wav.band temp)
  let s1 := { s with wav := { s.wav with band := b } }
  if s.wav.band = b then s1 else recordTemp 0 s1

/-- A good reading judges the range flag, and a change is recorded (R29). -/
def applyRange (temp : Int) (s : State) : State :=
  let out := decide (temp < s.setting .tempLowDd) || decide (s.setting .tempHighDd < temp)
  let s1 := { s with wav := { s.wav with outOfRange := out } }
  if s.wav.outOfRange = out then s1 else recordTemp (if out then 1 else 2) s1

/-- What a completed TEMP conversion does before the arbiter looks (R28). -/
def tempReading (raw : Nat) (s : State) : State :=
  let s1 := { s with wav := { s.wav with interval := s.inSec (s.settingNat .tempIntervalS) } }
  if raw = 0 ∨ 4095 ≤ raw then
    recordTemp 3 { s1 with wav := { s1.wav with reading := none, fault := true } }
  else
    let t := temperatureOf raw
    applyRange t (applyBand t { s1 with wav := { s1.wav with reading := some (t, s1.now), fault := false } })

/-- The raw value is a good temperature reading (R28). -/
def goodTemp (raw : Nat) : Bool := decide (0 < raw) && decide (raw < 4095)

/-! ## Waveform records (R17, R23) -/

/-- Changes the record with a number. -/
def State.mapWave (s : State) (num : Nat) (f : Wave → Wave) : State :=
  { s with wav := { s.wav with waves := s.wav.waves.map fun w => if w.num = num then f w else w } }

/-- Frees every RETIRED record that is no longer in use (R23). -/
def freeRetired (s : State) : State :=
  { s with wav := { s.wav with waves := s.wav.waves.filter fun w => !(w.state == .retired && !w.inUse) } }

/-- A claim made with the record is withdrawn or dropped (R17, R41). -/
def unclaimWave (num : Nat) (s : State) : State := freeRetired (s.mapWave num fun w => { w with claimed := false })

/-- A lane that used the record ends or stops (R17). -/
def leaveWave (num : Nat) (s : State) : State :=
  freeRetired (s.mapWave num fun w => { w with lanes := w.lanes - 1 })

/-- The waveform leaves its slot: RETIRED if in use, else freed (R22, R24). -/
def retireSlot (m : Mode) (b : Nat) (s : State) : State :=
  freeRetired { s with wav := { s.wav with waves := s.wav.waves.map fun w =>
    if w.state = .installed ∧ w.mode = m ∧ w.band = b then { w with state := .retired } else w } }

/-- The open load is discarded and its units are free again (R25). -/
def discardLoad (s : State) : State :=
  { s with wav := { s.wav with waves := s.wav.waves.filter fun w => w.state != .loading } }

end Sys2Proof.Machine
end

