-- ==== Sys2Proof/Machine/Arbiter.lean ====
section
/-! DEFINITION. Machine/Arbiter.lean: admission, the lane arbiter's look, the pick and the start of a lane
(R34 to R44). -/

namespace Sys2Proof.Machine

open Sys2Proof

/-- Appends an admitted update to the update queue (R34, R35). -/
def appendUpdate (id : Nat) (region : Rect) (mode : Mode) (noPromote : Bool) (origin : Origin) (place : Nat)
    (s : State) : State :=
  let e : QEntry :=
    { num := s.eng.nextNum, id := id, region := region, tiles := region.tileSet, mode := mode,
      noPromote := noPromote, origin := origin, place := place, pick := none }
  { s with eng := { s.eng with queue := s.eng.queue ++ [e], nextNum := s.eng.nextNum + 1 } }

/-- Some entry is CLAIMING (R35). -/
def State.claimingEntry (s : State) : Option QEntry := s.eng.queue.find? fun e => e.pick.isSome

/-- An entry is eligible, given the entries ahead of it (R36). -/
def State.eligible (s : State) (ahead : List QEntry) (e : QEntry) : Bool :=
  s.eng.lanes.any Option.isNone
    && !s.owned e.tiles
    && !ahead.any (fun a => a.tiles.meets e.tiles)
    && !s.img.held.any (fun p => decide (p.place < e.place) && p.tiles.meets e.tiles)
    && s.fresh? && !s.wav.outOfRange
    && s.claimingEntry.isNone

/-- The first eligible entry from the head of the queue (R37). -/
def State.firstEligible (s : State) (ahead : List QEntry) : List QEntry → Option QEntry
  | [] => none
  | e :: rest => if s.eligible ahead e then some e else s.firstEligible (ahead ++ [e]) rest

/-- The entry is promoted at its pick (R38). -/
def State.promotes (s : State) (e : QEntry) : Bool :=
  !e.noPromote && anyTile
    (fun k t => e.tiles.holds k && (t.unsure || decide (s.settingNat .residueLimit ≤ t.residue))) 0 s.img.tiles

/-- The entry leaves the queue. -/
def dropEntry (num : Nat) (s : State) : State :=
  { s with eng := { s.eng with queue := s.eng.queue.filter fun e => e.num != num } }

/-- The entry leaves the queue with a completion record (R39, R40, R41, R49). -/
def endEntry (e : QEntry) (status : Status) (mode : Mode) (promoted : Bool) (s : State) : State :=
  appendCompletion { id := e.id, status := status, mode := mode, promoted := promoted, origin := e.origin }
    (dropEntry e.num s)

/-- Tile part of a claim in mA (R40). -/
def tilePartMa (tiles : Nat) (currentUa : Nat) : Nat := (tiles * currentUa + 999) / 1000

/-- What a pick comes to (R38 to R40). -/
inductive PickResult where
  | noWaveform (mode : Mode) (promoted : Bool)
  | lowSupply (mode : Mode) (promoted : Bool)
  | claims (p : Pick)
  deriving DecidableEq, Repr

/-- The pick of an entry (R38 to R40). -/
def State.pickOf (s : State) (e : QEntry) : PickResult :=
  let promoted := s.promotes e
  let mode := if promoted then .clear else e.mode
  match s.wav.band.bind (s.slot mode) with
  | none => .noWaveform mode promoted
  | some w =>
    let part := tilePartMa e.tiles.size w.current
    if s.sup.limit < part + s.settingNat .panelBaseMa then .lowSupply mode promoted
    else .claims
      { mode := mode, promoted := promoted, region := if promoted then e.tiles.bounds else e.region,
        wave := w.num, tilePart := part,
        base := if s.eng.base.isSome then none else some (s.settingNat .panelBaseMa) }

/-- Amount of a pick's claim (R40). -/
def Pick.amount (p : Pick) : Nat := p.tilePart + p.base.getD 0

/-- The entry of a number gets a pick record. -/
def setPick (num : Nat) (p : Pick) (e : QEntry) : QEntry := if e.num = num then { e with pick := some p } else e

/-- The engine's claim of a pick (R40). -/
def Pick.claim (p : Pick) : Claim := { who := .engine, amount := p.amount }

/-- The entry becomes CLAIMING and its claim joins the waiting claims (R40, R105). -/
def sendClaim (e : QEntry) (p : Pick) (s : State) : State :=
  let s1 := { s with eng := { s.eng with queue := s.eng.queue.map (setPick e.num p) } }
  let s2 := { s1 with sup := { s1.sup with waiting := s1.sup.waiting ++ [p.claim] } }
  s2.mapWave p.wave fun w => { w with claimed := true }

/-- The arbiter looks, and looks again after a pick that ends its entry (R37). A reading that is still fresh at a wake lets
the update of the wake's turn be picked at once (log 55). `fuel` bounds the looks by the queue's length. -/
def lookLoop : Nat → State → State
  | 0, s => s
  | n + 1, s =>
    if s.claimingEntry.isSome then s
    else if s.eng.queue.isEmpty then s
    else if s.fresh? = false then tempDemand s
    else match s.firstEligible [] s.eng.queue with
      | none => s
      | some e => match s.pickOf e with
        | .noWaveform m p => lookLoop n (endEntry e .noWaveform m p s)
        | .lowSupply m p => lookLoop n (endEntry e .lowSupply m p s)
        | .claims p => sendClaim e p s

/-- The arbiter looks at the queue (R37). The arrival of a claim it sends is judged by the caller. -/
def look (s : State) : State := lookLoop (s.eng.queue.length + 1) s

/-- The lowest-numbered free lane (R42). -/
def State.freeLane (s : State) : Nat := s.eng.lanes.findIdx Option.isNone

/-- The panel supply begins its start when a lane starts while it is OFF (R44). -/
def startPanel (s : State) : State :=
  if s.eng.supply = .off then { s with eng := { s.eng with supply := .starting, boundary := s.inUs 3000 } } else s

/-- The lane record of an entry and its pick (R42). -/
def laneOf (e : QEntry) (p : Pick) (phases : Nat) : Lane :=
  { num := e.num, id := e.id, origin := e.origin, region := p.region, tiles := e.tiles, mode := p.mode,
    promoted := p.promoted, wave := p.wave, total := phases, phase := 0, grant := p.tilePart,
    state := .joining, dropped := false }

/-- Phases of the record with a number. -/
def State.wavePhases (s : State) (num : Nat) : Nat :=
  match s.wav.waves.find? fun w => w.num == num with
  | some w => w.phases.length
  | none => 0

/-- The target plane after the start of a lane of the mode: TEXT and SKIM rewrite the region, CLEAR and TONE leave
it as written (R43). -/
def startTarget (threshold : Nat) (m : Mode) (region : Rect) (target : Plane) : Plane :=
  match m with
  | .text | .skim => planeMap (modeLevel threshold m) target region
  | .clear | .tone => target

/-- Every tile of the set gets the lane as its owner (R42). -/
def ownTiles (i : Nat) (t : TileSet) (tiles : List Tile) : List Tile :=
  mapTiles (fun k tile => if t.holds k then { tile with owner := some i } else tile) 0 tiles

/-- The granted claim's entry becomes a lane (R42 to R44). -/
def startLane (s : State) : State :=
  match s.claimingEntry with
  | none => s
  | some e => match e.pick with
    | none => s
    | some p =>
      let i := s.freeLane
      let lane := laneOf e p (s.wavePhases p.wave)
      let s1 := dropEntry e.num s
      let base := match p.base with
        | some b => some b
        | none => s1.eng.base
      let s2 := { s1 with eng := { s1.eng with lanes := s1.eng.lanes.set i (some lane), base := base } }
      let target := startTarget (s.settingNat .skimThreshold) p.mode p.region s2.img.target
      let s3 := { s2 with img := { s2.img with tiles := ownTiles i e.tiles s2.img.tiles, target := target } }
      startPanel (s3.mapWave p.wave fun w => { w with lanes := w.lanes + 1, claimed := false })

end Sys2Proof.Machine
end

