-- ==== Sys2Proof/Machine/LightOps.lean ====
section
/-! DEFINITION. Machine/LightOps.lean: the light's mix, its judged state, its grant, its ramp and its follow settling
(R86 to R98). -/

namespace Sys2Proof.Machine

open Sys2Proof

/-- Changes the light's record. -/
def State.onLight (s : State) (f : FrontLight → FrontLight) : State := { s with light := f s.light }

/-- A duty lower than the one in force takes effect at once; a higher one waits for the period's start (R90). -/
def lightMix (s : State) : State :=
  s.onLight fun l => { l with warmDuty := min l.warmDuty s.warmDutyNow, coolDuty := min l.coolDuty s.coolDutyNow }

/-- The state is judged, and entering and leaving CUT are recorded (R86, R92). -/
def judgeLight (s : State) : State :=
  let new := s.light.judged
  let s1 := s.onLight fun l => { l with state := new }
  if new = .cut ∧ s.light.state ≠ .cut then recordLight 1 s1
  else if new ≠ .cut ∧ s.light.state = .cut then recordLight 2 s1
  else s1

/-- The first event after which G equals the claim clears the cut mark and records RESTORED (R110). -/
def judgeCutMark (s : State) : State :=
  if s.sup.cutMark = true ∧ s.light.grant = s.light.claim then
    recordBudget 1 { s with sup := { s.sup with cutMark := false } }
  else s

/-- The light takes a new grant: mix, state and cut mark follow (R92, R110). -/
def setGrant (g : Nat) (s : State) : State :=
  judgeCutMark (judgeLight (lightMix (s.onLight fun l => { l with grant := g })))

/-- G after a raise is answered (R107). -/
def State.raised (s : State) : Nat := max s.light.grant (min s.light.claim (s.sup.limit - s.others))

/-- The standing want is answered while no claim waits (R107). -/
def standingWant (s : State) : State :=
  if s.light.grant < s.light.claim ∧ s.light.grant < s.raised then setGrant s.raised s else s

/-- G is cut, which sets the cut mark and records CUT (R106, R109, R110). -/
def cutLight (g : Nat) (s : State) : State :=
  if g < s.light.grant then
    recordBudget 0 (setGrant g { s with sup := { s.sup with cutMark := true } })
  else s

/-- A current differs from its target (R88). -/
def FrontLight.differs (l : FrontLight) : Bool := l.level != l.levelTarget || l.warmth != l.warmthTarget

/-- The ramp acts on new targets (R88): it runs in ACTIVE, DOZE and DRAINING. -/
def targetsChanged (s : State) : State :=
  match s.light.ramp with
  | none =>
    if s.light.differs && s.pow.state.awake then judgeLight (s.onLight fun l => { l with ramp := s.inMs 10 })
    else judgeLight s
  | some _ =>
    if s.light.differs then judgeLight s
    else recordLight 0 (judgeLight (s.onLight fun l => { l with ramp := none }))

/-- One value moves toward another by at most a rate (R88). -/
def moveToward (rate cur tgt : Nat) : Nat := if cur ≤ tgt then min tgt (cur + rate) else max tgt (cur - rate)

/-- Both currents move by one ramp step (R88). -/
def rampMove (s : State) : State :=
  s.onLight fun l =>
    { l with level := moveToward (s.settingNat .rampRate) l.level l.levelTarget,
             warmth := moveToward (s.settingNat .warmthRate) l.warmth l.warmthTarget }

/-- The ramp timer after a step; the target reached is recorded (R88). -/
def rampNext (s : State) : State :=
  if s.light.differs then s.onLight fun l => { l with ramp := s.inMs 10 }
  else recordLight 0 (s.onLight fun l => { l with ramp := none })

/-- A follow level reaches the settle timer (R95). While toggled-off is set the timer is not armed. -/
def settleUpdate (f : Nat) (s : State) : State :=
  let h := s.settingNat .followHyst
  let far := decide (h < levelGap f s.light.levelTarget)
  let arm : State → State := fun s => if s.light.toggledOff then s
    else s.onLight fun l => { l with settle := s.inMs (s.settingNat .followSettleMs), arming := f }
  let s1 := s.onLight fun l => { l with latest := f }
  match s.light.settle with
  | none => if far then arm s1 else s1
  | some _ =>
    if far then (if h < levelGap f s.light.arming then arm s1 else s1)
    else s1.onLight fun l => { l with settle := none }

/-- What a completed AMB conversion does (R94). -/
def ambReading (raw : Nat) (s : State) : State :=
  if s.light.follow = true ∧ (s.pow.state = .active ∨ s.pow.state = .doze) then
    settleUpdate (followLevel s.light.table (raw * s.settingNat .ambientGain / 64)) s
  else s

/-- Follow steps resume (R97). -/
def followResume (s : State) : State :=
  if s.light.follow then s.onLight fun l => { l with step := s.inMs 500 } else s

/-- The drain level is restored (R97). -/
def restoreLight (s : State) : State :=
  match s.light.drainLevel with
  | none => s
  | some d => targetsChanged (s.onLight fun l => { l with levelTarget := d, drainLevel := none })

/-- Start of a drain (R97). -/
def lightDrainStart (s : State) : State :=
  let s1 := s.onLight fun l => { l with settle := none, step := none }
  if 0 < s.light.levelTarget then
    targetsChanged (s1.onLight fun l => { l with drainLevel := some s.light.levelTarget, levelTarget := 0 })
  else s1

/-- Entry into SLEEP: both PWM outputs are held off and a leftover warmth ramp stops its timer (R88, R90, R97). -/
def lightSleep (s : State) : State := s.onLight fun l => { l with pwmOn := false, ramp := none }

/-- The PWM outputs start again with the duties of R89 (R90). -/
def lightPwmStart (s : State) : State :=
  s.onLight fun l => { l with pwmOn := true, warmDuty := s.warmDutyNow, coolDuty := s.coolDutyNow,
                              warmDiv := s.settingNat .pwmDiv, coolDiv := s.settingNat .pwmDiv }

/-- The ramp timer is armed if a current differs from its target (R97, R98). -/
def rampArm (s : State) : State :=
  if s.light.differs then s.onLight fun l => { l with ramp := s.inMs 10 } else s

/-- A wake from SLEEP: outputs, ramp and follow steps resume (R90, R97). -/
def lightWake (s : State) : State := followResume (rampArm (lightPwmStart s))

end Sys2Proof.Machine
end

