-- ==== Sys2Proof/Machine/Budget.lean ====
section
/-! DEFINITION. Machine/Budget.lean: the decision pass of the supply budget, the light's reports of its claim and the
end of a lane's grants (R104 to R108). -/

namespace Sys2Proof.Machine

open Sys2Proof

/-- The claimed operation starts at the flash under its grant (R140, R141). -/
def startOp (grant : Option Nat) (s : State) : State :=
  { s with store := { s.store with flash := .running, grant := grant, page := 0, cut := false, suspends := 0,
                                   ran := 0, since := s.now } }

/-- The oldest waiting claim leaves the list. -/
def dropOldest (s : State) : State := { s with sup := { s.sup with waiting := s.sup.waiting.tail } }

/-- The waiting claims of a claimant leave the list (R105). -/
def dropClaims (who : Claimant) (s : State) : State :=
  { s with sup := { s.sup with waiting := s.sup.waiting.filter fun c => c.who != who } }

/-- A granted claim: its claimant is told in the same event (R106). After a lane starts, the arbiter looks
again (R37, R42). That this look is made inside the running pass, so that a claim it sends is judged in the pass before the
light's standing want, is the model's choice (log 49). -/
def grantClaim (c : Claim) (s : State) : State :=
  match c.who with
  | .engine => look (startLane (dropOldest s))
  | .store => startOp (some c.amount) (dropOldest s)

/-- The decision pass of R106. `fuel` bounds the claims it judges. -/
def passLoop : Nat → State → State
  | 0, s => s
  | n + 1, s =>
    match s.sup.waiting with
    | [] => standingWant s
    | c :: _ =>
      if s.others + c.amount + s.light.grant ≤ s.sup.limit then passLoop n (grantClaim c s)
      else if s.others + c.amount ≤ s.sup.limit then
        passLoop n (grantClaim c (cutLight (s.sup.limit - (s.others + c.amount)) s))
      else s

/-- A decision pass (R106). Each entry of the update queue is granted at most once, and each waiting claim. -/
def decisionPass (s : State) : State := passLoop (s.eng.queue.length + s.sup.waiting.length + 1) s

/-- The arbiter looks; a claim it sends is a decision point (R37, R106). -/
def lookPass (s : State) : State :=
  let s1 := look s
  if s1.sup.waiting.length = s.sup.waiting.length then s1 else decisionPass s1

/-- The light reports its claim (R91, R107), with the mix and state of the event. -/
def reportClaim (s : State) : State :=
  let c := s.lightClaimMa
  let s1 := s.onLight fun l => { l with claim := c }
  if c = s.light.claim then judgeCutMark (judgeLight (lightMix s1))
  else if c < s.light.grant then decisionPass (setGrant c s1)
  else if s.light.grant < c ∧ s.sup.waiting = [] then setGrant s1.raised s1
  else setGrant s.light.grant s1

/-- The engine's claim is withdrawn: the pick record goes with its entry (R41, R49). -/
def withdrawEngine (e : QEntry) (s : State) : State :=
  match e.pick with
  | none => s
  | some p => unclaimWave p.wave (dropClaims .engine s)

/-- A ramp step (R88). -/
def rampStepNow (s : State) : State := rampNext (reportClaim (rampMove s))

end Sys2Proof.Machine
end

