-- ==== Sys2Proof/Machine/ImageOps.lean ====
section
/-! DEFINITION. Machine/ImageOps.lean: landing, holding, the landing pass and the stalled packet (R12 to R14), and the
tile changes at the end or stop of a lane (R4 to R6). -/

namespace Sys2Proof.Machine

open Sys2Proof

/-- Sets pending on every tile of a set (R6). -/
def markPending (t : TileSet) (tiles : List Tile) : List Tile :=
  mapTiles (fun k tile => if t.holds k then { tile with pending := true } else tile) 0 tiles

/-- A packet lands: its levels enter the target plane and its tiles become pending (R12). -/
def landPacket (p : HeldPacket) (s : State) : State :=
  { s with img := { s.img with target := planeWrite s.img.target p.rect p.levels,
                               tiles := markPending p.tiles s.img.tiles } }

/-- A packet must be held, given the packets held before it (R12). -/
def State.mustHold (s : State) (older : List HeldPacket) (p : HeldPacket) : Bool :=
  s.owned p.tiles || older.any fun q => q.tiles.meets p.tiles

/-- The walk of a landing pass: `kept` are the older packets still in the list (R13). -/
def landWalk : List HeldPacket → List HeldPacket → State → State
  | kept, [], s => { s with img := { s.img with held := kept } }
  | kept, p :: rest, s =>
    if s.mustHold kept p then landWalk (kept ++ [p]) rest s else landWalk kept rest (landPacket p s)

/-- The packet fits the free room of the held-write list (R13). -/
def State.heldFits (s : State) (p : HeldPacket) : Bool := decide (s.heldBytes + p.size ≤ Config.heldRoom)

/-- Lands, holds or stalls a TARGET packet (R12, R14). -/
def placePacket (r : Request) (p : HeldPacket) (s : State) : State :=
  if s.mustHold s.img.held p then
    if s.heldFits p then
      respond r .ok [] { s with img := { s.img with held := s.img.held ++ [p], stall := none } }
    else { s with img := { s.img with stall := some (r, p) } }
  else respond r .ok [] (landPacket p { s with img := { s.img with stall := none } })

/-- A landing pass, at whose end the stalled packet is tested again (R13, R14). -/
def landingPass (s : State) : State :=
  let s1 := landWalk [] s.img.held s
  match s1.img.stall with
  | none => s1
  | some (r, p) => placePacket r p s1

/-- A tile after the normal end of a lane over it; `whole` tells whether it lies wholly inside the region (R3 to
R6). -/
def tileEnded (m : Mode) (whole : Bool) (t : Tile) : Tile :=
  { owner := none,
    residue := match m with
      | .clear => if whole then 0 else t.residue
      | .skim => min 255 (t.residue + 2)
      | .tone | .text => min 255 (t.residue + 1),
    unsure := t.unsure && !(m == .clear && whole),
    pending := t.pending && !whole }

/-- A tile after the stop of a lane over it; `drove` tells whether the lane applied a phase (R3, R5, R50). -/
def tileStopped (drove : Bool) (t : Tile) : Tile := { t with owner := none, unsure := t.unsure || drove }

/-- The tile table after the normal end of a lane. -/
def tilesEnded (l : Lane) (tiles : List Tile) : List Tile :=
  mapTiles (fun k t => if l.tiles.holds k then tileEnded l.mode (l.region.wholeTile k) t else t) 0 tiles

/-- The tile table after the stop of a lane. -/
def tilesStopped (l : Lane) (tiles : List Tile) : List Tile :=
  mapTiles (fun k t => if l.tiles.holds k then tileStopped (decide (0 < l.phase)) t else t) 0 tiles

/-- The shown plane takes the target's levels over a region (R1). -/
def showRegion (r : Rect) (s : State) : State :=
  { s with img := { s.img with shown := planeCopy s.img.shown s.img.target r } }

end Sys2Proof.Machine
end

