-- ==== Sys2Proof/Machine/EngineOps.lean ====
section
/-! DEFINITION. Machine/EngineOps.lean: the end and stop of a lane, the frame boundary and ABORT (R45 to R50). -/

namespace Sys2Proof.Machine

open Sys2Proof

/-- The completion record of a lane (R47, R50). -/
def Lane.record (l : Lane) (status : Status) : Completion :=
  { id := l.id, status := status, mode := l.mode, promoted := l.promoted, origin := l.origin }

/-- The lane's tiles are released and it leaves its waveform; a lane dropped by a warm reset appends no record
(R47 steps 3 to 7, R50, R54). -/
def releaseLane (i : Nat) (l : Lane) (status : Status) (s : State) : State :=
  let s1 := leaveWave l.wave (landingPass s)
  let s2 := if l.dropped then s1 else appendCompletion (l.record status) s1
  { s2 with eng := { s2.eng with lanes := s2.eng.lanes.set i none } }

/-- A lane ends normally (R47). -/
def endLane (i : Nat) (l : Lane) (s : State) : State :=
  let s1 := showRegion l.region s
  releaseLane i l .done { s1 with img := { s1.img with tiles := tilesEnded l s1.img.tiles } }

/-- A lane stops (R50). -/
def stopLane (i : Nat) (l : Lane) (s : State) : State :=
  let s1 := if 0 < l.phase then showRegion l.region s else s
  releaseLane i l .aborted { s1 with img := { s1.img with tiles := tilesStopped l s1.img.tiles } }

/-- The lane ends normally at this boundary (R45 step 1). -/
def Lane.finishes (l : Lane) : Bool := (l.state == .driving || l.state == .stopping) && l.phase == l.total

/-- The lane stops at this boundary (R45 step 2). -/
def Lane.stops (l : Lane) : Bool := l.state == .stopping && l.phase != l.total

/-- The lanes of the table that pass a test, with their numbers, counted from `i`, lowest first. -/
def lanesWhere (p : Lane → Bool) : Nat → List (Option Lane) → List (Nat × Lane)
  | _, [] => []
  | i, none :: rest => lanesWhere p (i + 1) rest
  | i, some l :: rest => if p l then (i, l) :: lanesWhere p (i + 1) rest else lanesWhere p (i + 1) rest

/-- Step 3 of R45. -/
def Lane.join (l : Lane) : Lane := if l.state = .joining then { l with state := .driving } else l

/-- The phase a frame gives a lane (R45 step 4). -/
def Lane.apply (l : Lane) : Lane := if l.state = .driving then { l with phase := l.phase + 1 } else l

/-- The waiting claim with the base added (R41). -/
def raiseClaim (base : Nat) (c : Claim) : Claim :=
  if c.who = .engine then { c with amount := c.amount + base } else c

/-- The pick record with the base noted as included (R41). -/
def raisePick (base : Nat) (e : QEntry) : QEntry :=
  match e.pick with
  | some p => { e with pick := some { p with base := some base } }
  | none => e

/-- The waiting claim is raised by the base unless it includes it (R41, R48). -/
def raiseWaiting (s : State) : State :=
  match s.claimingEntry with
  | none => s
  | some e => match e.pick with
    | some { base := none, .. } =>
      let base := s.settingNat .panelBaseMa
      { s with eng := { s.eng with queue := s.eng.queue.map (raisePick base) },
               sup := { s.sup with waiting := s.sup.waiting.map (raiseClaim base) } }
    | _ => s

/-- The last lane is gone: supply and clock stop, the drive base is released and a waiting claim raised (R48). -/
def stopSupply (s : State) : State :=
  raiseWaiting { s with eng := { s.eng with supply := .off, boundary := none, base := none } }

/-- A frame opens (R44, R45 step 4). -/
def openFrame (s : State) : State :=
  { s with eng := { s.eng with
    lanes := s.eng.lanes.map fun l => l.map Lane.apply,
    supply := .on, boundary := s.inUs (s.settingNat .framePeriodUs) } }

/-- The decision pass and the look that the end or stop of a lane makes after the boundary's steps; a lane dropped by a
warm reset makes the look alone (R45, R54, R108, log 35). -/
def afterLane (s : State) (l : Nat × Lane) : State := if l.2.dropped then lookPass s else lookPass (decisionPass s)

/-- Steps 1 and 2 of R45. -/
def endAndStop (s : State) : State :=
  let s1 := (lanesWhere Lane.finishes 0 s.eng.lanes).foldl (fun s l => endLane l.1 l.2 s) s
  (lanesWhere Lane.stops 0 s.eng.lanes).foldl (fun s l => stopLane l.1 l.2 s) s1

/-- Steps 3 and 4 of R45. -/
def joinAndOpen (s : State) : State :=
  let s1 := { s with eng := { s.eng with lanes := s.eng.lanes.map fun l => l.map Lane.join } }
  if s1.drives then openFrame s1 else stopSupply s1

/-- A frame boundary (R45). -/
def boundaryNow (s : State) : State :=
  let gone := lanesWhere Lane.finishes 0 s.eng.lanes ++ lanesWhere Lane.stops 0 s.eng.lanes
  gone.foldl afterLane (joinAndOpen (endAndStop s))

/-! ## ABORT (R49) -/

/-- An id matches: none stands for ALL. -/
def matchesId (id : Option Nat) (n : Nat) : Bool :=
  match id with
  | none => true
  | some i => i == n

/-- A removed entry's completion record (R49 steps 1 and 2). -/
def QEntry.abortRecord (e : QEntry) : Completion :=
  match e.pick with
  | none => { id := e.id, status := .aborted, mode := e.mode, promoted := false, origin := e.origin }
  | some p => { id := e.id, status := .aborted, mode := p.mode, promoted := p.promoted, origin := e.origin }

/-- Removes a queue entry by ABORT (R49 steps 1 and 2). -/
def abortEntry (s : State) (e : QEntry) : State :=
  appendCompletion e.abortRecord (dropEntry e.num (withdrawEngine e s))

/-- A lane that ABORT marks (R49 step 3). -/
def Lane.abortable (l : Lane) (id : Option Nat) : Bool := matchesId id l.id && l.state != .stopping

/-- Marks the matching lanes STOPPING (R49 step 3). -/
def markStopping (id : Option Nat) (l : Lane) : Lane :=
  if l.abortable id then { l with state := .stopping } else l

/-- The number of lanes that ABORT marks. -/
def State.abortLanes (s : State) (id : Option Nat) : Nat :=
  s.eng.lanes.countP fun l => match l with
    | some l => l.abortable id
    | none => false

/-- The queue entries that ABORT removes: the WAITING ones in queue order (log 39), then the CLAIMING one (R49). -/
def State.abortEntries (s : State) (id : Option Nat) : List QEntry :=
  (s.eng.queue.filter fun e => matchesId id e.id && e.pick.isNone)
    ++ (s.eng.queue.filter fun e => matchesId id e.id && e.pick.isSome)

/-- ABORT of an id or of ALL: the state, and the count the response carries (R49). A withdrawal is a decision point
(R105), and the arbiter looks if entries were removed (R37). -/
def abortNow (id : Option Nat) (s : State) : State :=
  let gone := s.abortEntries id
  let s1 := gone.foldl abortEntry s
  let s2 := { s1 with eng := { s1.eng with lanes := s1.eng.lanes.map fun l => l.map (markStopping id) } }
  let s3 := if gone.any (fun e => e.pick.isSome) then decisionPass s2 else s2
  if gone.isEmpty then s3 else lookPass s3

/-- The count ABORT answers (R49). -/
def State.abortCount (s : State) (id : Option Nat) : Nat := (s.abortEntries id).length + s.abortLanes id

end Sys2Proof.Machine
end

