-- ==== Sys2Proof/Machine/FetchOps.lean ====
section
/-! DEFINITION. Machine/FetchOps.lean: credits, found-BAD chunks, failure, close and the outcomes of the fetch engine's
store operations (R117, R120, R124 to R130). -/

namespace Sys2Proof.Machine

open Sys2Proof

/-- Changes a channel's record. -/
def State.onChannel (s : State) (c : Nat) (f : Channel → Channel) : State :=
  { s with fetch := { s.fetch with channels := s.fetch.channels.modify c f } }

/-- Changes a chunk of a channel. -/
def Channel.onChunk (i : Nat) (f : Chunk → Chunk) (ch : Channel) : Channel :=
  { ch with chunks := ch.chunks.modify i f }

/-- Changes a chunk's state, and drops its payload unless it stays in its slab. -/
def Chunk.become (st : ChunkState) (k : Chunk) : Chunk :=
  match st with
  | .staged | .writing => { k with state := st }
  | _ => { k with state := st, payload := [] }

/-- A chunk whose slab is gone. -/
def Chunk.emptied (k : Chunk) : Chunk := { k with payload := [] }

/-- The part grants credits (R120). -/
def State.grantsCredits (s : State) : Bool :=
  (s.pow.state == .active || s.pow.state == .doze) && decide (1 ≤ s.availableToFetch)

/-- The channel that the next credit goes to (R120). -/
def State.creditTaker (s : State) : Option Nat :=
  if s.grantsCredits then (channelsAfter s.fetch.lastGranted).find? s.wantsCredit else none

/-- One credit passes to a channel (R61, R120). -/
def grantCredit (c : Nat) (s : State) : State :=
  { s with pool := takeSlab (.credit c) s.pool, fetch := { s.fetch with lastGranted := c } }

/-- Grants credits until no channel qualifies; `fuel` bounds the grants by the pool (R120). -/
def creditLoop : Nat → State → State
  | 0, s => s
  | n + 1, s =>
    match s.creditTaker with
    | none => s
    | some c => creditLoop n (grantCredit c s)

/-- A credit point (R120). -/
def creditPoint (s : State) : State := creditLoop Config.poolSlabs s

/-- The slabs of a channel pass to FREE (R61). -/
def freeChannel (c : Nat) (s : State) : State := { s with pool := freeSlabs (Holder.ofChannel c) s.pool }

/-- The slab of a chunk passes to FREE (R61). -/
def freeChunk (c i : Nat) (s : State) : State := { s with pool := freeSlabs (fun h => h == .chunk c i) s.pool }

/-- A channel becomes CLOSED (R117, R130). -/
def becomeClosed (c : Nat) (s : State) : State :=
  let s1 := (freeChannel c s).onChannel c fun ch =>
    Channel.recordEvent { ch with state := .closed, manifest := none, chunks := [], refetch := [], eraseRetry := false } 3
  creditPoint (forcedTrigger .fetch s1)

/-- The frame in reception is the channel's. -/
def State.inReception (s : State) (c : Nat) : Bool :=
  match s.fetch.reception with
  | some r => r.channel == c
  | none => false

/-- The slot holds an operation of the channel's present download. -/
def State.ownInFlight (s : State) (c : Nat) : Bool :=
  match s.fetch.slot with
  | some o => o.channel == c && !o.ignored
  | none => false

/-- A CLOSING channel becomes CLOSED once nothing of its own is in flight (R117). -/
def closingCheck (c : Nat) (s : State) : State :=
  if (s.channel c).state = .closing ∧ s.inReception c = false ∧ s.ownInFlight c = false then becomeClosed c s else s

/-- A channel fails (R125 steps 1 to 3). The chunk states stay as they are; the slabs' contents go. -/
def failCore (c : Nat) (r : FailReason) (s : State) : State :=
  let s1 := (freeChannel c s).onChannel c fun ch =>
    Channel.recordEvent { ch with state := .failed, reason := some r, chunks := ch.chunks.map Chunk.emptied } 2
  let s2 := if s1.inReception c then { s1 with fetch := { s1.fetch with reception := none } } else s1
  creditPoint (forcedTrigger .fetch s2)

/-- What finding a chunk BAD leads to: a failure with its reason, or a refetch list (R124). -/
def badResult (ch : Channel) (i : Nat) : FailReason ⊕ List Nat :=
  if 3 ≤ (ch.chunk i).bad + 1 then .inl .repeatedBad
  else if ch.refetch.contains i then .inr ch.refetch
  else if 16 ≤ ch.refetch.length then .inl .refetchFull
  else .inr (ch.refetch ++ [i])

/-- The chunk is marked BAD (R124). -/
def markBad (c i : Nat) (s : State) : State :=
  s.onChannel c (Channel.onChunk i fun k => { k.become .bad with bad := k.bad + 1 })

/-- How an operation ends (R126, R135). -/
inductive OpEnd where
  | ok | timeout | fault | lowSupply
  deriving DecidableEq, Repr

/-- A program of a chunk has ended OK (R128, R129, R130). That the progress trigger comes before FINISHED's forced one is the
model's choice (log 58). -/
def chunkStored (c i : Nat) (s : State) : State :=
  let s1 := (freeChunk c i s).onChannel c fun ch =>
    let ch1 := { Channel.onChunk i (Chunk.become .stored) ch with stored := ch.stored + 1 }
    { ch1 with pfx := leadingStored ch1.chunks }
  let mark := match (s1.channel c).manifest with
    | some m => m.mark
    | none => 0
  let count := match (s1.channel c).manifest with
    | some m => m.count
    | none => 0
  let s2 := if 0 < mark ∧ (s1.channel c).reached = false ∧ mark ≤ (s1.channel c).pfx then
      s1.onChannel c fun ch => Channel.recordEvent { ch with reached := true } 0
    else s1
  let s3 := moderatedTrigger .fetch s2
  let s4 := if (s3.channel c).stored = count then
      forcedTrigger .fetch (s3.onChannel c fun ch => Channel.recordEvent { ch with state := .finished } 1)
    else s3
  creditPoint s4

/-- An erase's outcome for an ARMED channel (R127). -/
def eraseOutcome (c : Nat) (e : OpEnd) (s : State) : State :=
  match e with
  | .ok => s.onChannel c fun ch => { ch with cursor := ch.cursor + 1, eraseRetry := false }
  | .timeout =>
    if (s.channel c).eraseRetry then failCore c .storeFault s
    else s.onChannel c fun ch => { ch with eraseRetry := true }
  | .fault => failCore c .storeFault s
  | .lowSupply => s

/-- A program's outcome for an ARMED channel (R128). -/
def programOutcome (c i : Nat) (e : OpEnd) (s : State) : State :=
  match e with
  | .ok => chunkStored c i s
  | .timeout =>
    if ((s.channel c).chunk i).retry then failCore c .storeFault s
    else s.onChannel c (Channel.onChunk i fun k => { k.become .staged with retry := true })
  | .fault => failCore c .storeFault s
  | .lowSupply => s.onChannel c (Channel.onChunk i (Chunk.become .staged))

/-- The slot empties, and is paused after LOW_SUPPLY (R126). -/
def emptySlot (e : OpEnd) (s : State) : State :=
  { s with fetch := { s.fetch with slot := none, paused := s.fetch.paused || e == .lowSupply } }

/-- The outcome of the slot's operation reaches the fetch engine (R126 to R128, R117, R125, R132). The choice of the
next operation is the caller's. -/
def fetchOutcome (e : OpEnd) (s : State) : State :=
  match s.fetch.slot with
  | none => s
  | some o =>
    let s1 := emptySlot e s
    if o.ignored then s1
    else if (s1.channel o.channel).state = .armed then
      match o.chunk with
      | none => eraseOutcome o.channel e s1
      | some i => programOutcome o.channel i e s1
    else closingCheck o.channel s1

/-- The lowest-indexed STAGED chunk whose sector is below the erase cursor (R126). -/
def State.programmable (s : State) (c : Nat) : Option Nat :=
  match (s.channel c).manifest with
  | none => none
  | some m =>
    if (s.channel c).state = .armed then
      (List.range m.count).find? fun i =>
        ((s.channel c).chunk i).state == .staged && decide (m.sector i < (s.channel c).cursor)
    else none

/-- The channel qualifies for an erase (R126). -/
def State.erasable (s : State) (c : Nat) : Bool :=
  match (s.channel c).manifest with
  | none => false
  | some m =>
    (s.channel c).state == .armed && decide ((s.channel c).cursor ≤ m.last)
      && (s.pow.state != .draining || (List.range m.count).any fun i =>
        ((s.channel c).chunk i).state == .staged && decide ((s.channel c).cursor ≤ m.sector i))

/-- The choice of R126: a channel, and a chunk to program or none for an erase. -/
def State.fetchChoice (s : State) : Option (Nat × Option Nat) :=
  if s.fetch.slot.isNone && !s.fetch.paused && s.pow.state.awake then
    match (channelsAfter s.fetch.lastGiven).findSome? fun c => (s.programmable c).map fun i => (c, i) with
    | some (c, i) => some (c, some i)
    | none => ((channelsAfter s.fetch.lastGiven).find? s.erasable).map fun c => (c, none)
  else none

/-- The operation that a choice offers to the book store (R126, R137). -/
def State.offerKind (s : State) (c : Nat) (chunk : Option Nat) : OpKind :=
  match chunk with
  | none => .erase (s.channel c).cursor
  | some i =>
    match (s.channel c).manifest with
    | some m => .program (m.address i) ((s.channel c).chunk i).payload
    | none => .program 0 []

/-- The slot takes a choice; a programmed chunk becomes WRITING (R126). -/
def fillSlot (c : Nat) (chunk : Option Nat) (s : State) : State :=
  let s1 := match chunk with
    | some i => s.onChannel c (Channel.onChunk i (Chunk.become .writing))
    | none => s
  { s1 with fetch := { s1.fetch with lastGiven := c, slot := some { channel := c, chunk := chunk, ignored := false } } }

end Sys2Proof.Machine
end

