-- ==== Sys2Proof/Machine/StoreOps.lean ====
section
/-! DEFINITION. Machine/StoreOps.lean: the operation queue, selection, outcomes, suspends, overruns and resets of the
flash, and the scheduling of the fetch engine's slot (R126, R136 to R145). -/

namespace Sys2Proof.Machine

open Sys2Proof

/-- Changes the book store's record. -/
def State.onStore (s : State) (f : Store → Store) : State := { s with store := f s.store }

/-- An operation joins the tail of the queue (R136). -/
def joinQueue (src : OpSource) (k : OpKind) (s : State) : State :=
  s.onStore fun st => { st with queue := st.queue ++ [{ source := src, kind := k, arrival := st.nextArrival }],
                                nextArrival := st.nextArrival + 1 }

/-- The response code of an outcome (R135). -/
def OpEnd.code : OpEnd → Code
  | .ok => .ok | .timeout => .timeout | .fault => .fault | .lowSupply => .lowSupply

/-- The outcome of an operation goes to its source (R135, R137). Boot reads are power control's. -/
def deliver (o : Op) (e : OpEnd) (bytes : List Byte) (s : State) : State :=
  match o.source with
  | .host r => respond r e.code bytes s
  | .fetch => fetchOutcome e s
  | .boot | .nobody => s

/-- The claim of an operation in mA, read when it is prepared (R140). -/
def State.claimOf (s : State) (o : Op) : Nat :=
  match o.kind with
  | .read _ _ => s.settingNat .storeReadMa
  | .program _ _ => s.settingNat .storeProgramMa
  | .erase _ => s.settingNat .storeEraseMa

/-- The operation that the store selects (R139). -/
def State.selected (s : State) : Option Op :=
  match s.store.queue.find? s.servable with
  | some o => some o
  | none => s.store.queue.head?

/-- An operation leaves the queue. -/
def leaveQueue (arrival : Nat) (st : Store) : Store :=
  { st with queue := st.queue.filter fun o => o.arrival != arrival }

/-- The store's claim is sent (R140, R105). -/
def sendStoreClaim (o : Op) (s : State) : State :=
  let s1 := s.onStore fun st => { st with flash := .claiming, op := some o }
  decisionPass { s1 with sup := { s1.sup with waiting := s1.sup.waiting ++ [{ who := .store, amount := s.claimOf o }] } }

/-- Selects until an operation is claiming or none is left (R139, R140). `fuel` bounds the LOW_SUPPLY ends. -/
def selectLoop : Nat → State → State
  | 0, s => s
  | n + 1, s =>
    if s.store.flash = .idle then
      match s.selected with
      | none => s
      | some o =>
        let s1 := s.onStore (leaveQueue o.arrival)
        if s.sup.limit < s.claimOf o then selectLoop n (deliver o .lowSupply [] s1) else sendStoreClaim o s1
    else s

/-- A selection point (R139). -/
def selectPoint (s : State) : State := selectLoop (s.store.queue.length + 1) s

/-- Chooses an operation for the slot. An OFFLINE store ends the offer FAULT, which fails its channel, and the choice
is made again; `fuel` bounds those failures by the channels (R126, R145). -/
def scheduleLoop : Nat → State → State
  | 0, s => s
  | n + 1, s =>
    match s.fetchChoice with
    | none => s
    | some (c, chunk) =>
      let s1 := fillSlot c chunk s
      if s.store.flash = .offline then scheduleLoop n (fetchOutcome .fault s1)
      else joinQueue .fetch (s.offerKind c chunk) s1

/-- A scheduling point; an operation that joins makes a selection point (R126, R139). -/
def schedulePoint (s : State) : State := selectPoint (scheduleLoop 5 s)

/-- After an outcome: the fetch engine chooses again if the operation was its own, and the store selects (R126,
R139). -/
def afterOutcome (o : Op) (s : State) : State :=
  match o.source with
  | .fetch => schedulePoint s
  | _ => selectPoint s

/-- The operation at the flash leaves it, and its grant is released, which is a decision point (R108, R141). -/
def clearOp (flash : FlashState) (s : State) : State :=
  let s1 := s.onStore fun st => { st with flash := flash, op := none, grant := none, page := 0, cut := false,
                                          suspends := 0, ran := 0, since := s.now }
  match s.store.grant with
  | none => s1
  | some _ => decisionPass s1

/-- The operation ends by completion or failure, and the store is IDLE (R141). -/
def endOp (o : Op) (e : OpEnd) (bytes : List Byte) (s : State) : State :=
  afterOutcome o (deliver o e bytes (clearOp .idle s))

/-- The operation ends TIMEOUT, and the flash is sent a reset (R144). -/
def endTimeout (o : Op) (s : State) : State :=
  let s1 := (clearOp .resetting s).onStore fun st => { st with commanded := s.now }
  afterOutcome o (deliver o .timeout [] s1)

/-! ## Content of failed operations (R133) -/

/-- Bytes from an address become free values (log 6). -/
def freeRange (a n : Nat) (s : State) : State :=
  { s with content := memWrite s.content a (freeBytes s.fresh n), fresh := s.fresh + n }

/-- A sector becomes unknown (R133). -/
def unknownSector (sector : Nat) (s : State) : State :=
  freeRange (sector * Config.sectorBytes) Config.sectorBytes s

/-- First address and bytes of the page now being programmed. -/
def pageOf (a page : Nat) (data : List Byte) : Nat × List Byte :=
  (a + page * Config.pageBytes, (data.drop (page * Config.pageBytes)).take Config.pageBytes)

/-- The bytes of a page whose program failed become unknown (R133). -/
def unknownPage (a page : Nat) (data : List Byte) (s : State) : State :=
  freeRange (pageOf a page data).1 (pageOf a page data).2.length s

/-- The bytes of a page whose program was cut short: each has lost some of the bits that the value written clears
(R133, log 7). -/
def partlyPage (a page : Nat) (data : List Byte) (s : State) : State :=
  let p := pageOf a page data
  let kept := (freeBytes s.fresh p.2.length).zipWith (· ||| ·) p.2
  { s with content := memProgram s.content p.1 kept, fresh := s.fresh + p.2.length }

/-- The page being programmed takes its values (R133). -/
def programPage (a page : Nat) (data : List Byte) (s : State) : State :=
  { s with content := memProgram s.content (pageOf a page data).1 (pageOf a page data).2 }

/-- The page in hand is the operation's last (R141). -/
def lastPage (page : Nat) (data : List Byte) : Bool := decide (data.length ≤ (page + 1) * Config.pageBytes)

/-- What a TIMEOUT leaves of the content. -/
def timeoutContent (o : Op) (s : State) : State :=
  match o.kind with
  | .read _ _ => s
  | .program a d => partlyPage a s.store.page d s
  | .erase sec => unknownSector sec s

/-- What a FAULT leaves of the content. -/
def faultContent (o : Op) (s : State) : State :=
  match o.kind with
  | .read _ _ => s
  | .program a d => unknownPage a s.store.page d s
  | .erase sec => unknownSector sec s

/-! ## Suspend (R142, R143) -/

/-- The suspend test passes (R142). -/
def State.suspendable (s : State) : Bool :=
  s.store.flash == .running && (match s.store.op with
    | some o => (match o.kind with
      | .erase _ => true
      | _ => false)
    | none => false)
    && s.store.queue.any s.servable
    && decide (s.settingNat .eraseMinRunUs ≤ s.now - s.store.since)
    && decide (s.store.suspends < s.settingNat .suspendLimit)

/-- The suspend test (R142). -/
def suspendTest (s : State) : State :=
  if s.suspendable then
    s.onStore fun st => { st with flash := .suspending, suspends := st.suspends + 1, commanded := s.now }
  else s

/-- The erase is suspended and the batch is fixed (R143). -/
def suspendNow (s : State) : State :=
  s.onStore fun st => { st with flash := .suspended, ran := st.ran + (s.now - st.since), since := s.now,
                                batch := st.queue.filter s.servable,
                                queue := st.queue.filter fun o => !s.servable o }

/-- The erase is resumed once its batch is empty (R143). -/
def resumeIfDone (s : State) : State :=
  if s.store.batch.isEmpty then s.onStore fun st => { st with flash := .running, since := s.now } else s

/-- A read goes back to its place in the queue. -/
def insertOp (o : Op) : List Op → List Op
  | [] => [o]
  | p :: rest => if o.arrival < p.arrival then o :: p :: rest else p :: insertOp o rest

/-- The reads left in the batch return to the queue (R144). -/
def returnBatch (s : State) : State :=
  s.onStore fun st => { st with queue := st.batch.foldr insertOp st.queue, batch := [] }

/-- A batch read overruns: it ends TIMEOUT, and with it the suspended erase (R144). -/
def batchOverrun (rd er : Op) (s : State) : State :=
  let s1 := deliver rd .timeout [] (returnBatch (s.onStore fun st => { st with batch := st.batch.tail }))
  endTimeout er (timeoutContent er s1)

/-! ## Resets of the flash (R144, R145) -/

/-- Every operation of the queue ends FAULT, the oldest first (R145, log 47). -/
def faultQueue (s : State) : State :=
  s.store.queue.foldl (fun s o => deliver o .fault [] s) (s.onStore fun st => { st with queue := [] })

/-- The flash reset is over, and with it an erase abandoned by a warm reset (R144, R147). -/
def resetOver (flash : FlashState) (s : State) : State :=
  match s.store.op with
  | none => s.onStore fun st => { st with flash := flash }
  | some o => deliver o .fault [] (clearOp flash s)

/-- The store becomes OFFLINE (R145). -/
def goOffline (s : State) : State := schedulePoint (faultQueue (resetOver .offline s))

/-! ## A channel failure and its store operation (R125, R137) -/

/-- The fetch engine's operation is still in the queue. -/
def State.fetchQueued (s : State) : Bool := s.store.queue.any fun o => o.source == .fetch

/-- The slot's outcome will change nothing (R125, R132). -/
def ignoreSlot (s : State) : State :=
  { s with fetch := { s.fetch with slot := s.fetch.slot.map fun o => { o with ignored := true } } }

/-- What the book store does with the operation of a channel that fails (R137). A fetch ERASE is never cut. -/
def cutOp (c : Nat) (s : State) : State :=
  match s.fetch.slot with
  | none => s
  | some o =>
    if o.channel = c ∧ o.ignored = false then
      if o.chunk = none then ignoreSlot s
      else if s.fetchQueued then
        emptySlot .fault (s.onStore fun st => { st with queue := st.queue.filter fun q => q.source != .fetch })
      else if s.store.flash = .claiming then
        decisionPass (dropClaims .store (emptySlot .fault (s.onStore fun st => { st with flash := .idle, op := none })))
      else ignoreSlot (s.onStore fun st => { st with cut := true })
    else s

/-- A channel fails outside an outcome of its own (R125, R137). -/
def failChannel (c : Nat) (r : FailReason) (s : State) : State := schedulePoint (cutOp c (failCore c r s))

/-- A chunk is found BAD (R124); its credit's or chunk's slab has been freed. -/
def foundBad (c i : Nat) (s : State) : State :=
  match badResult (s.channel c) i with
  | .inl r => failChannel c r (markBad c i s)
  | .inr l => creditPoint ((markBad c i s).onChannel c fun ch => { ch with refetch := l })

/-! ## New-limit event (R109) -/

/-- The engine's waiting claim no longer fits the whole limit, judged with the panel_base_ma in force now (R41, R109,
log 40). -/
def engineMisfit (s : State) : Option (QEntry × Pick) :=
  match s.claimingEntry with
  | none => none
  | some e => match e.pick with
    | none => none
    | some p => if s.sup.limit < p.tilePart + s.settingNat .panelBaseMa then some (e, p) else none

/-- Step 1 of R109 for the update engine. -/
def judgeEngineClaim (s : State) : State :=
  match engineMisfit s with
  | none => s
  | some (e, p) => endEntry e .lowSupply p.mode p.promoted (withdrawEngine e s)

/-- The store's waiting claim no longer fits the whole limit (R109, R140). -/
def storeMisfit (s : State) : Option Op :=
  if s.store.flash = .claiming then
    match s.sup.waiting.find? fun c => c.who == .store with
    | some c => if s.sup.limit < c.amount then s.store.op else none
    | none => none
  else none

/-- Step 1 of R109 for the book store. -/
def judgeStoreClaim (s : State) : State :=
  match storeMisfit s with
  | none => s
  | some o => deliver o .lowSupply [] (dropClaims .store (s.onStore fun st => { st with flash := .idle, op := none }))

/-- Step 2 of R109. -/
def cutToLimit (s : State) : State := if s.sup.limit < s.total then cutLight (s.sup.limit - s.others) s else s

/-- A pause ends at a new limit, which is then a scheduling point (R126). -/
def unpause (was : Bool) (s : State) : State :=
  if was then schedulePoint { s with fetch := { s.fetch with paused := false } } else s

/-- A new-limit event with its limit set (R109). What the withdrawals and the end of a pause lead to comes after the
three steps (log 10). -/
def newLimit (limit : Nat) (s : State) : State :=
  let s0 := { s with sup := { s.sup with limit := limit } }
  let s1 := judgeStoreClaim (judgeEngineClaim s0)
  let s2 := decisionPass (cutToLimit s1)
  let s3 := if (engineMisfit s0).isSome then lookPass s2 else s2
  let s4 := if (storeMisfit s0).isSome then selectPoint s3 else s3
  unpause s.fetch.paused s4

/-- The filter after a sample (R100). -/
def filterAfter (filter : List Nat) (raw : Nat) : List Nat :=
  if filter = [] then List.replicate 8 raw else filter.tail ++ [raw]

/-- The low mark after a sample (R101). -/
def lowAfter (fired : Bool) (mark mv : Nat) : Bool := if fired then decide (mv ≤ mark + 50) else decide (mv < mark)

/-- The supply account takes a sample (R100, R101). -/
def takeSample (raw mark : Nat) (sup : Supply) : Supply :=
  { sup with filter := filterAfter sup.filter raw, volts := some (batteryMv (filterAfter sup.filter raw)),
             lowFired := lowAfter sup.lowFired mark (batteryMv (filterAfter sup.filter raw)) }

/-- A BATT sample: filter, voltage, low mark and new limit (R100, R101, R103). -/
def battSample (raw : Nat) (s : State) : State :=
  let s1 := { s with sup := takeSample raw (s.settingNat .lowMarkMv) s.sup }
  let s2 := if s.sup.lowFired = false ∧ s1.sup.lowFired = true then recordPower 5 s1 else s1
  newLimit (limitFor s.sup.limitTable (batteryMv (filterAfter s.sup.filter raw))) s2

end Sys2Proof.Machine
end

