-- ==== Sys2Proof/Machine/CacheOps.lean ====
section
/-! DEFINITION. Machine/CacheOps.lean: the entry lists, the turn attempt, runs, the settle update and the LIGHT toggle
(R65 to R83). -/

namespace Sys2Proof.Machine

open Sys2Proof

/-- Changes the cache. -/
def State.onCache (s : State) (f : PageCache → PageCache) : State := { s with cache := f s.cache }

/-- The list of a direction (R66). -/
def PageCache.list (c : PageCache) : Dir → List Entry
  | .forward => c.forward
  | .back => c.back

/-- Sets the list of a direction. -/
def PageCache.setList (c : PageCache) (d : Dir) (l : List Entry) : PageCache :=
  match d with
  | .forward => { c with forward := l }
  | .back => { c with back := l }

/-- The other list. -/
def Dir.other : Dir → Dir
  | .forward => .back
  | .back => .forward

/-- Capacity of a list (R66). -/
def Dir.capacity : Dir → Nat
  | .forward => 6
  | .back => 2

/-- Every entry, FORWARD first. -/
def PageCache.entries (c : PageCache) : List Entry := c.forward ++ c.back

/-- The entry with a number (R65). -/
def PageCache.find (c : PageCache) (n : Nat) : Option Entry := c.entries.find? fun e => e.num == n

/-- The lowest number not in use (R65). -/
def PageCache.freeNumber (c : PageCache) : Nat :=
  ((List.range 8).find? fun n => !(c.entries.any fun e => e.num == n)).getD 0

/-- Changes the entry with a number. -/
def PageCache.modify (c : PageCache) (n : Nat) (f : Entry → Entry) : PageCache :=
  { c with forward := c.forward.map fun e => if e.num = n then f e else e,
           back := c.back.map fun e => if e.num = n then f e else e }

/-- The slabs of entries pass to FREE, which is a credit point (R60, R120). -/
def freeEntries (nums : List Nat) (s : State) : State :=
  creditPoint { s with pool := freeSlabs (fun h => nums.any fun n => h == .entry n) s.pool }

/-! ## Turns (R72 to R77) -/

/-- The miss that the checks of R72 find, if any. -/
def State.turnMiss (s : State) (d : Dir) : Option Miss :=
  match s.cache.list d with
  | [] => some .empty
  | e :: _ =>
    if e.isOpen then some .notReady
    else if s.eng.queue ≠ [] ∨ s.drives = true ∨ s.img.held ≠ [] then some .busy
    else if s.anyPending then some .dirty
    else if 48 ≤ s.eng.completions.length then some .full
    else none

/-- A turn record of this moment (R77). -/
def State.turnRecord (s : State) (d : Dir) (miss : Option Miss) (dropped : Option (Nat × Word32)) (src : Source) :
    TurnRecord :=
  { dir := d, miss := miss, tag := s.cache.tag, dropped := dropped, source := src, time := s.keyClock }

/-- The entry that a turn makes from the old target (R73 step 2). -/
def State.turnedAway (s : State) (n : Nat) : Entry :=
  { num := n, tag := s.cache.tag, turnMode := s.cache.turnMode, fill := none, isOpen := false, written := [],
    plane := s.img.target }

/-- The entry that overflows the destination list (R73 step 3, R74). -/
def State.overflow (s : State) (d : Dir) : Option Entry :=
  if (s.cache.list d.other).length + 1 ≤ d.other.capacity then none else (s.cache.list d.other).getLast?

/-- The lists, tag and turn mode after a turn to `e`, with `rest` behind it (R73, R74). -/
def State.turnLists (s : State) (d : Dir) (e : Entry) (rest : List Entry) : PageCache :=
  let dest := (s.turnedAway e.num :: s.cache.list d.other).take d.other.capacity
  { (s.cache.setList d rest).setList d.other dest with tag := e.tag, turnMode := e.turnMode }

/-- Every tile becomes pending (R73 step 4). -/
def allPending (tiles : List Tile) : List Tile := tiles.map fun t => { t with pending := true }

/-- The slabs exchanged, the overflow freed, the page in place and every tile pending (R73 steps 1 to 4). -/
def exchange (d : Dir) (e : Entry) (rest : List Entry) (s : State) : State :=
  let pool := swapSlabs .target (.entry e.num) s.pool
  let pool := match s.overflow d with
    | none => pool
    | some t => freeSlabs (fun h => h == .entry t.num) pool
  { s with cache := s.turnLists d e rest, pool := pool,
           img := { s.img with target := e.plane, tiles := allPending s.img.tiles } }

/-- The mode of a turn's update (R75, R81). -/
def turnUpdateMode (src : Source) (m : Mode) : Mode := if src = .run then .skim else m

/-- A turn to the head `e` of a list (R73 to R75). The arbiter's look at the admission and the credit point of a freed
slab end the event. -/
def turnNow (d : Dir) (src : Source) (place : Nat) (e : Entry) (rest : List Entry) (s : State) : State :=
  let dropped := (s.overflow d).map fun t => (t.num, t.tag)
  let s1 := appendUpdate 0 wholePanel (turnUpdateMode src e.turnMode) false .cache place (exchange d e rest s)
  lookPass (creditPoint (appendTurn (s1.turnRecord d none dropped src) s1))

/-- A turn attempt (R72). -/
def turnAttempt (d : Dir) (src : Source) (place : Nat) (s : State) : State :=
  match s.turnMiss d, s.cache.list d with
  | none, e :: rest => turnNow d src place e rest s
  | m, _ => appendTurn (s.turnRecord d m none src) s

/-- The place of an update that the page cache appends on its own: after every request taken (R35, log 29). -/
def State.nextPlace (s : State) : Nat := s.displayPlace + 1

/-- Changes a key's scanner state. -/
def State.onKey (s : State) (k : Key) (f : KeyScan → KeyScan) : State :=
  { s with keys := s.keys.setKey k (f (s.keys.key k)) }

/-- A turn attempt by a key: a turn's update becomes the last update of this press (R80, R81, R155). -/
def keyTurn (k : Key) (d : Dir) (s : State) : State :=
  let s1 := turnAttempt d .key s.nextPlace s
  if s.turnMiss d = none then s1.onKey k fun ks => { ks with last := some s.eng.nextNum } else s1

/-! ## Runs (R81, R82) -/

/-- The run's last update is still queued or on a lane (R81). -/
def State.lastLives (s : State) (k : Key) : Bool :=
  match (s.keys.key k).last with
  | none => false
  | some n => s.updateLives n

/-- The run with its timer armed for the next tick. -/
def armRun (k : Key) (turns : Nat) (s : State) : State :=
  s.onKey k fun ks => { ks with run := some { timer := s.inMs (s.settingNat .runMs), turns := turns } }

/-- A tick of a run that has counted `turns` (R81). -/
def runTickNow (k : Key) (d : Dir) (turns : Nat) (s : State) : State :=
  if s.lastLives k then armRun k turns s
  else if s.turnsEnabled = false then s.onKey k fun ks => { ks with run := some { timer := none, turns := turns } }
  else
    let s1 := turnAttempt d .run s.nextPlace s
    if s.turnMiss d = none then
      armRun k (turns + 1) (s1.onKey k fun ks => { ks with last := some s.eng.nextNum })
    else s1.onKey k fun ks => { ks with run := none }

/-- The settle update (R82). -/
def settleRun (d : Dir) (s : State) : State :=
  if s.admits then
    lookPass (appendUpdate 0 wholePanel s.cache.turnMode false .cache s.nextPlace s)
  else appendTurn (s.turnRecord d (some .full) none .run) s

/-- The run of a key has turns to settle (R82). -/
def KeyScan.settles (k : KeyScan) : Bool :=
  match k.run with
  | some r => decide (0 < r.turns)
  | none => false

/-! ## The LIGHT key (R83) -/

/-- The LIGHT toggle (R83). -/
def toggleLight (s : State) : State :=
  if 0 < s.light.levelTarget then
    targetsChanged (s.onLight fun l =>
      { l with toggleLevel := l.levelTarget, levelTarget := 0, toggledOff := true, settle := none })
  else targetsChanged (s.onLight fun l => { l with levelTarget := l.toggleLevel, toggledOff := false })

end Sys2Proof.Machine
end

