-- ==== Sys2Proof/Machine/PowerOps.lean ====
section
/-! DEFINITION. Machine/PowerOps.lean: the drain, the entry into SLEEP, wakes, resleep and the warm reset event (R149 to
R162). -/

namespace Sys2Proof.Machine

open Sys2Proof

/-- Changes power control's record. -/
def State.onPow (s : State) (f : Power → Power) : State := { s with pow := f s.pow }

/-! ## Wake sources (R154) -/

/-- A source begins a wake, or joins the sources noted during one (R154, R156). During the exit that a falling RESET
began, no wake begins (R162). -/
def wakeSource (w : WakeSource) (s : State) : State :=
  match s.pow.exit with
  | none =>
    s.onPow fun p => { p with waking := [w], lastWake := some w, wakeTimer := none, exit := s.inUs 1000 }
  | some _ =>
    if s.pow.waking = [] ∨ s.pow.waking.contains w = true then s
    else s.onPow fun p => { p with waking := p.waking ++ [w] }

/-! ## Entry into SLEEP (R151) -/

/-- Every run ends (R151). -/
def Scanner.endRuns (k : Scanner) : Scanner :=
  { k with fwd := { k.fwd with run := none }, back := { k.back with run := none },
           light := { k.light with run := none }, power := { k.power with run := none } }

/-- The converter is powered off; an abandoned conversion's flag is set again (R32). -/
def Converter.off (c : Converter) : Converter :=
  match c.busy with
  | none => { c with powered := false }
  | some (ch, _) => { c.setFlag ch true with busy := none, powered := false }

/-- The wake timer for a sleep order (R156). -/
def State.wakeTimerFor (s : State) : Timer :=
  match s.pow.order with
  | some (sec, _) => if 0 < sec then s.inSec sec else none
  | none => none

/-- The blocks are put to sleep (R151). -/
def sleepBlocks (s : State) : State :=
  let s1 := lightSleep s
  { s1 with keys := s1.keys.endRuns, conv := s1.conv.off, wav := { s1.wav with interval := none },
            sup := { s1.sup with sample := none },
            store := { s1.store with flash := if s1.store.flash = .idle then .lowPower else s1.store.flash } }

/-- SLEEP is entered (R151); a RADIO_ATTN already high is a wake source (R154). -/
def enterSleep (s : State) : State :=
  let s1 := (sleepBlocks s).onPow fun p =>
    { p with state := .sleep, prior := none, drain := none, resleep := none, wakeTimer := s.wakeTimerFor, waking := [],
             exit := none }
  let s2 := recordPower 1 s1
  if s.pow.radioAttn then wakeSource .radio s2 else s2

/-- The drain conditions are judged while DRAINING (R151). -/
def drainJudge (s : State) : State := if s.pow.state = .draining ∧ s.drained = true then enterSleep s else s

/-- The resleep timer is armed and stopped with the conditions (R156). -/
def resleepJudge (s : State) : State :=
  if s.pow.state = .doze ∧ s.pow.resleepPending = true then
    if s.drained then
      (if s.pow.resleep = none then s.onPow fun p => { p with resleep := s.inMs (s.settingNat .resleepMs) } else s)
    else s.onPow fun p => { p with resleep := none }
  else s

/-- What power control judges at the end of an event (R151, R156). It changes nothing in ACTIVE. -/
def judgePower (s : State) : State := resleepJudge (drainJudge s)

/-! ## The drain (R150 to R153) -/

/-- Every credit passes to FREE (R131). -/
def withdrawCredits (s : State) : State := { s with pool := freeSlabs Holder.isCredit s.pool }

/-- A drain begins (R150). The conditions are judged at the end of the event. -/
def drainStart (sec : Nat) (resleep : Bool) (s : State) : State :=
  let s1 := s.onPow fun p =>
    { p with state := .draining, prior := some p.state, order := some (sec, resleep), resleepPending := false,
             resleep := none, drain := s.inMs (s.settingNat .drainTimeoutMs) }
  withdrawCredits (lightDrainStart s1)

/-- The part returns from DRAINING to an awake state (R97, R131, R152, R153). -/
def drainReturn (to_ : PowerState) (s : State) : State :=
  let s1 := s.onPow fun p => { p with state := to_, prior := none, drain := none, order := none }
  schedulePoint (creditPoint (restoreLight (followResume s1)))

/-- The drain is cancelled (R153). -/
def drainCancel (s : State) : State :=
  recordPower 3 (drainReturn .active (s.onPow fun p => { p with resleepPending := false }))

/-- The drain fails (R152). -/
def drainFail (s : State) : State :=
  recordPower 2 (drainReturn (s.pow.prior.getD .active) (s.onPow fun p => { p with failed := s.firstUnmet }))

/-- DOZE becomes ACTIVE by the host (R149, R156; for a WAKE log 48). -/
def dozeToActive (s : State) : State :=
  s.onPow fun p => { p with state := .active, resleepPending := false, resleep := none, order := none }

/-- A host packet reaches power control (R149, R153). -/
def hostArrives (s : State) : State :=
  match s.pow.state with
  | .doze => dozeToActive s
  | .draining => drainCancel s
  | _ => s

/-! ## The end of the self-refresh exit (R154, R155) -/

/-- The flash leaves its low-power state (R146). -/
def flashUp (s : State) : State :=
  s.onStore fun st => { st with flash := if st.flash = .lowPower then .idle else st.flash }

/-- A page key's wake action (R155). With a reading still fresh the turn's update may be picked at once: the model's
reading (log 55). -/
def wakeTurn (k : Key) (d : Dir) (s : State) : State :=
  if s.turnsEnabled then
    let last := (s.keys.key k).last
    let s1 := keyTurn k d s
    if (s.keys.key k).state = .up then s1.onKey k fun ks => { ks with last := last } else s1
  else s

/-- The LIGHT key's wake action (R155). A press that is still held makes no toggle at its RELEASE (log 32). With the toggle
disabled the press is not marked: the model's reading (log 54). -/
def wakeLight (s : State) : State :=
  if s.toggleEnabled then
    let s1 := if s.light.drainLevel.isSome then restoreLight s else toggleLight s
    s1.onKey .light fun ks => { ks with mute := ks.state != .up }
  else s

/-- A wake source's action (R155). -/
def wakeAction (w : WakeSource) (s : State) : State :=
  match w with
  | .fwd => wakeTurn .fwd .forward s
  | .back => wakeTurn .back .back s
  | .light => wakeLight s
  | .timer => recordPower 4 s
  | .power | .radio | .host => s

/-- The state a wake leads to (R154 step 1). -/
def Power.wakesTo (p : Power) : PowerState := if p.waking.contains .host then .active else .doze

/-- The sleep order asks for resleep (R156). -/
def Power.asksResleep (p : Power) : Bool :=
  match p.order with
  | some (_, r) => r
  | none => false

/-- The blocks are brought up (R154 steps 1 to 3). -/
def wakeBlocks (s : State) : State :=
  let s1 := s.onPow fun p => { p with state := p.wakesTo, exit := none }
  let s2 := convKick { s1 with conv := { s1.conv with powered := true, temp := true, batt := true } }
  lightWake (flashUp s2)

/-- The part leaves SLEEP (R154). That a HOST wake clears resleep pending is the model's reading (log 59). -/
def wakeEnd (s : State) : State :=
  let s1 := s.pow.waking.foldl (fun s w => wakeAction w s) (wakeBlocks s)
  let s2 := schedulePoint (creditPoint s1)
  s2.onPow fun p =>
    { p with waking := [], resleepPending := p.state == .doze && p.asksResleep,
             order := if p.state = .active then none else p.order }

/-! ## The warm reset event (R162) -/

/-- A lane at a warm reset: its grant is dropped and it is to stop (R54). A lane already STOPPING for an ABORT is dropped
like the others and appends no record: the model's choice (log 50). -/
def Lane.warm (l : Lane) : Lane := { l with state := .stopping, grant := 0, dropped := true }

/-- The engine at a warm reset (R54). -/
def Engine.warm (e : Engine) : Engine :=
  { e with queue := [], completions := [], base := none, lanes := e.lanes.map fun l => l.map Lane.warm }

/-- The waveform store at a warm reset: open load discarded, claim dropped, interval timer armed anew (R25, R28, R30,
R54). -/
def warmWaves (s : State) : State :=
  let s1 := freeRetired (discardLoad { s with wav := { s.wav with
    waves := s.wav.waves.map fun w => { w with claimed := false } } })
  { s1 with wav := { s1.wav with events := 0, interval := s.inSec (s.settingNat .tempIntervalS) } }

/-- The converter at a warm reset (R32). -/
def Converter.warm (c : Converter) : Converter :=
  { c with temp := false, batt := false, amb := false, busy := none, powered := true }

/-- The supply budget at a warm reset (R99, R111). -/
def warmSupply (s : State) : State :=
  { s with sup := { s.sup with waiting := [], cutMark := false, events := 0, sample := s.inSec 1 } }

/-- The front light at a warm reset (R98). -/
def warmLight (s : State) : State :=
  let s1 := s.onLight fun l =>
    { l with settle := none, events := 0, step := if l.follow then s.inMs 500 else none, ramp := none }
  rampArm s1

/-- A key at a warm reset: UP and released, with its timers stopped. A key held through the reset is debounced anew
(R85), from the reset's event on (DEDUCED, log 22). -/
def warmKey (debounce : Timer) (k : KeyScan) : KeyScan :=
  { KeyScan.reset with pressed := k.pressed, debounce := if k.pressed then debounce else none }

/-- Page cache and key scanner at a warm reset (R85). -/
def warmKeys (s : State) : State :=
  let d := s.inMs (s.settingNat .debounceMs)
  { s with
    cache := { s.cache with forward := [], back := [], records := [], lost := false },
    keys := { fwd := warmKey d s.keys.fwd, back := warmKey d s.keys.back, light := warmKey d s.keys.light,
              power := warmKey d s.keys.power, records := [], lost := false, epoch := s.now } }

/-- The slot at a warm reset: an operation not yet at the flash ends, another stays with its outcome ignored (R132,
R147). -/
def warmSlot (s : State) : Option SlotOp :=
  if s.fetchQueued || (s.store.flash == .claiming && match s.store.op with
    | some o => o.source == .fetch
    | none => false) then none
  else s.fetch.slot.map fun o => { o with ignored := true }

/-- The fetch engine and the pool at a warm reset (R64, R132). Recorded events and erase retries go too (logs 44, 45), and
the erase cursors are 0 (the model's choice, log 51). -/
def warmFetch (s : State) : State :=
  { s with fetch := { Fetch.reset with slot := warmSlot s },
           pool := freeSlabs (fun h => h.isEntry || h.isFetch) s.pool }

/-- The operation's response is not to be sent (R147). -/
def Op.orphan (o : Op) : Op :=
  match o.source with
  | .host _ => { o with source := .nobody }
  | _ => o

/-- The operation at the flash at a warm reset (R147 step 3). -/
def warmOp (o : Op) (s : State) : State :=
  match o.kind with
  | .read _ _ => clearOp .idle s
  | .program _ _ => s.onStore fun st => { st with op := some o.orphan, cut := true }
  | .erase sec =>
    (unknownSector sec s).onStore fun st =>
      { st with op := some o.orphan, flash := .resetting, commanded := s.now, batch := [] }

/-- The book store at a warm reset (R147). -/
def warmStore (s : State) : State :=
  let s1 := s.onStore fun st => { st with queue := [] }
  match s.store.flash, s.store.op with
  | .claiming, _ => s1.onStore fun st => { st with flash := .idle, op := none }
  | .offline, _ => s1.onStore fun st => { st with flash := .idle }
  | .resetting, _ => s1
  | _, some o => warmOp o s1
  | _, none => s1

/-- Power control at a warm reset, before its START event (R162). -/
def Power.warm (p : Power) : Power :=
  { p with state := .active, prior := none, order := none, drain := none, wakeTimer := none, resleep := none,
           resleepPending := false, waking := [], exit := none, resetWaits := false, outcome := .warm, skipped := 0,
           failed := none, events := 0, boot := none }

/-- The warm reset event (R162): each block resets as its chapter states, and a START event is recorded. The stopped
READ of R147 releases its grant when the claims are gone; that it does so last, after the lane and base grants are dropped,
is the model's choice (log 57). -/
def warmEvent (s : State) : State :=
  let s1 := warmFetch (warmKeys (warmLight (warmSupply (warmWaves s))))
  let s2 := { s1 with
    img := { s1.img with held := [], stall := none }, conv := s1.conv.warm, eng := s1.eng.warm,
    pow := s1.pow.warm, link := .reset }
  recordPower 0 (warmStore s2)

end Sys2Proof.Machine
end

