-- ==== Sys2Proof/Machine/Settings.lean ====
section
/-! DEFINITION. Machine/Settings.lean: storing a setting, and the tables that both a request and the boot table load
(R8, R26, R93, R102, R173). -/

namespace Sys2Proof.Machine

open Sys2Proof

/-! ## SET (R173) -/

/-- The lower end of a setting's range in force: temp_max_age_s and temp_high_dd follow another setting (R173). -/
def State.lowerEnd (s : State) : Setting → Int
  | .tempMaxAgeS => s.setting .tempIntervalS
  | .tempHighDd => s.setting .tempLowDd
  | st => (settingRow st).lo

/-- The value stored for a value given: clamped to the range; wake_set keeps its nine lowest bits (R173). -/
def State.clampSetting (s : State) (st : Setting) (v : Int) : Int :=
  match st with
  | .wakeSet => v % 512
  | st => max (s.lowerEnd st) (min (settingRow st).hi v)

/-- Stores a value. -/
def State.putSetting (s : State) (st : Setting) (v : Int) : State :=
  { s with settings := s.settings.set ((settingRow st).number - 1) v }

/-- Moves the higher of two linked settings with the lower one (R29, R173). -/
def linkSettings (st : Setting) (s : State) : State :=
  match st with
  | .tempIntervalS =>
    if s.setting .tempMaxAgeS < s.setting .tempIntervalS then s.putSetting .tempMaxAgeS (s.setting .tempIntervalS) else s
  | .tempLowDd =>
    if s.setting .tempHighDd < s.setting .tempLowDd then s.putSetting .tempHighDd (s.setting .tempLowDd) else s
  | _ => s

/-- What a stored setting does at once: the floors are credit points (R120), light_max_ua changes the claim (R91) and the
full currents the mix (R89). -/
def settingEffect (st : Setting) (s : State) : State :=
  match st with
  | .cacheFloor | .fetchFloor => creditPoint s
  | .lightMaxUa => reportClaim s
  | .warmFullUa | .coolFullUa => lightMix s
  | _ => s

/-- Stores a setting as SET does (R173). -/
def storeSetting (st : Setting) (v : Int) (s : State) : State :=
  settingEffect st (linkSettings st (s.putSetting st (s.clampSetting st v)))

/-! ## Tables -/

/-- Every entry of a tone map is a level (R8). -/
def toneMapOk (body : List Byte) : Bool := body.all fun b => decide (b.toNat ≤ 15)

/-- Installs a tone map (R8). -/
def putToneMap (body : List Byte) (s : State) : State :=
  { s with img := { s.img with toneMap := body.map BitVec.toNat } }

/-- Strictly ascending integers. -/
def risingInts : List Int → Bool
  | a :: b :: rest => decide (a < b) && risingInts (b :: rest)
  | _ => true

/-- Strictly ascending first components. -/
def risingPairs : List (Nat × Nat) → Bool
  | a :: b :: rest => decide (a.1 < b.1) && risingPairs (b :: rest)
  | _ => true

/-- The boundaries of a BANDS body (12.3). -/
def boundsOf (body : List Byte) : List Int := (nat16s (body.drop 2)).map signed16

/-- The first failing check of BANDS (R26). -/
def bandsCheck (body : List Byte) : Option Code :=
  if byteAt body 0 < 1 ∨ 12 < byteAt body 0 ∨ 50 < byteAt body 1 then some .range
  else if (boundsOf body).length + 1 ≠ byteAt body 0 then some .length
  else if risingInts (boundsOf body) = false then some .range
  else none

/-- Steps 1 and 2 of R26, and the discard of the reading at step 3. Every slot above the new count is emptied. -/
def putBands (body : List Byte) (s : State) : State :=
  let n := byteAt body 0
  let waves := s.wav.waves.filter fun w => !(w.state == .loading && decide (n ≤ w.band))
  let waves := waves.map fun w => if w.state = .installed ∧ n ≤ w.band then { w with state := .retired } else w
  freeRetired { s with wav := { s.wav with
    waves := waves, table := { count := n, bounds := boundsOf body, hyst := byteAt body 1 }, reading := none,
    band := none } }

/-- The points of LIMITS pass their checks (R102). -/
def limitsOk (pts : List (Nat × Nat)) : Bool :=
  decide (2 ≤ pts.length) && pts.all (fun p => decide (p.2 ≤ 1000)) && risingPairs pts

/-- Replaces the limit table; with a voltage held the limit is recomputed, a new-limit event (R102). -/
def putLimits (pts : List (Nat × Nat)) (s : State) : State :=
  let s1 := { s with sup := { s.sup with limitTable := pts } }
  match s.sup.volts with
  | none => s1
  | some v => newLimit (limitFor pts v) s1

/-- The first failing check of FOLLOW (R93, R176). -/
def followCheck (held : List (Nat × Nat)) (body : List Byte) : Option Code :=
  let pts := pairs16 (body.drop 1)
  if 1 < byteAt body 0 then some .range
  else if pts.length = 1 ∨ pts.any (fun p => decide (1000 < p.2)) = true ∨ risingPairs pts = false then some .range
  else if byteAt body 0 = 1 ∧ pts = [] ∧ held = [] then some .state
  else none

/-- An accepted FOLLOW (R93). -/
def putFollow (body : List Byte) (s : State) : State :=
  let pts := pairs16 (body.drop 1)
  let s1 := if pts = [] then s else s.onLight fun l => { l with table := pts }
  if byteAt body 0 = 1 then
    convRequest .amb (s1.onLight fun l =>
      { l with follow := true, toggledOff := false, settle := none, step := s.inMs 500 })
  else s1.onLight fun l => { l with follow := false, settle := none, step := none }

/-! ## Waveform loads (R20 to R22) -/

/-- The load fits the free units (R20 check 3). -/
def State.unitsFit (s : State) (phases : Nat) : Bool := decide (phases ≤ s.freeUnits)

/-- Mode, band and phase count are legal (R20 check 2). -/
def State.waveFieldsOk (s : State) (mode band phases : Nat) : Bool :=
  (modeOf mode).isSome && decide (band < s.wav.table.count) && decide (1 ≤ phases)

/-- A phase unit whose every element is HOLD (R20). -/
def holdUnit : List Byte := List.replicate 64 0

/-- A new LOADING record (R20). -/
def State.newWave (s : State) (m : Mode) (band phases current : Nat) : Wave :=
  { num := s.wav.nextNum, mode := m, band := band, current := current, phases := List.replicate phases holdUnit,
    state := .loading, lanes := 0, claimed := false }

/-- Opens a load (R20). -/
def openWave (m : Mode) (band phases current : Nat) (s : State) : State :=
  { s with wav := { s.wav with waves := s.wav.waves ++ [s.newWave m band phases current],
                               nextNum := s.wav.nextNum + 1 } }

/-- Writes a run of phase units over a list, from an index on (R21). -/
def putUnits (first : Nat) (units phases : List (List Byte)) : List (List Byte) :=
  phases.take first ++ units ++ phases.drop (first + units.length)

/-- Fills phases of the open load (R21). -/
def fillWave (first : Nat) (units : List (List Byte)) (w : Wave) (s : State) : State :=
  s.mapWave w.num fun w => { w with phases := putUnits first units w.phases }

/-- The sum of a waveform's phase data (R22). -/
def Wave.sum (w : Wave) : Word32 := crc32 w.phases.flatten

/-- Commits the open load (R22). -/
def commitWave (w : Wave) (s : State) : State :=
  (retireSlot w.mode w.band s).mapWave w.num fun w => { w with state := .installed }

end Sys2Proof.Machine
end

