-- ==== Sys2Proof/Machine/BootOps.lean ====
section
/-! DEFINITION. Machine/BootOps.lean: the boot-table read, its walk and the end of start-up (R159 to R161). -/

namespace Sys2Proof.Machine

open Sys2Proof

/-- A boot read goes to the flash, without a claim (R146). -/
def startBootRead (a n : Nat) (s : State) : State :=
  startOp none (s.onStore fun st => { st with op := some { source := .boot, kind := .read a n, arrival := 0 } })

/-- Changes the record of the boot-table read. -/
def onBoot (f : Boot → Boot) (s : State) : State := s.onPow fun p => { p with boot := p.boot.map f }

/-- The boot-table read begins with the header (R159 step 2, R160). -/
def bootBegin (s : State) : State :=
  startBootRead 0 10 (s.onPow fun p =>
    { p with boot := some { headerRead := false, length := 0, sum := 0, entries := [], at_ := 0, image := none,
                            skipped := 0, badImage := false, failing := false } })

/-! ## The end of start-up (R159, R161) -/

/-- A key held when start-up ends is sampled then (R78). -/
def startKey (debounce : Timer) (k : KeyScan) : KeyScan :=
  { k with down := false, debounce := if k.pressed then debounce else none }

/-- The keys when start-up ends. -/
def startKeys (d : Timer) (k : Scanner) : Scanner :=
  { k with fwd := startKey d k.fwd, back := startKey d k.back, light := startKey d k.light,
           power := startKey d k.power }

/-- The part becomes ACTIVE with an outcome (R159 step 3, R161). -/
def startUpEnd (o : BootOutcome) (skipped : Nat) (s : State) : State :=
  let s1 := s.onPow fun p => { p with state := .active, boot := none, outcome := o, skipped := skipped }
  recordPower 0 { s1 with keys := startKeys (s.inMs (s.settingNat .debounceMs)) s1.keys,
                          sup := { s1.sup with sample := s.inSec 1 } }

/-- At DEFAULTS everything the boot table changed returns to its cold-reset value (R161). -/
def revertBoot (s : State) : State :=
  let s1 := s.onLight fun l => { l with follow := false, table := [], step := none, settle := none, toggledOff := false }
  let s2 := { s1 with
    settings := defaultSettings,
    img := { s1.img with toneMap := defaultToneMap },
    wav := { s1.wav with waves := [], table := WaveStore.reset.table },
    conv := { s1.conv with amb := false } }
  putLimits defaultLimitTable (lightMix s2)

/-- Start-up ends with DEFAULTS (R161). -/
def bootFails (s : State) : State := startUpEnd .defaults 0 (revertBoot s)

/-- Start-up ends with LOADED or PARTIAL (R161). -/
def bootWalked (s : State) : State :=
  match s.pow.boot with
  | none => s
  | some b => startUpEnd (if b.badImage then .partly else .loaded) b.skipped s

/-! ## The walk (R160) -/

/-- A skipped entry (R160). -/
def skipEntry (s : State) : State := onBoot (fun b => { b with skipped := min 255 (b.skipped + 1) }) s

/-- A bad image (R160). -/
def badImage (s : State) : State := onBoot (fun b => { b with badImage := true }) s

/-- A BANDS entry: the request, without its conversion (R160). -/
def bootBands (d : List Byte) (s : State) : State :=
  if ReqKind.lengthOk .bands d.length ∧ bandsCheck d = none then putBands d s else skipEntry s

/-- A SETTING entry (R160). -/
def bootSetting (d : List Byte) (s : State) : State :=
  match settingOfNumber (byteAt d 0) with
  | some st => if d.length = 5 then storeSetting st (signed32 (nat32At d 1)) s else skipEntry s
  | none => skipEntry s

/-- Applies an entry other than END and WAVE_IMAGE, or skips it (R160). -/
def bootEntry (kind : Nat) (d : List Byte) (s : State) : State :=
  match kind with
  | 1 => bootSetting d s
  | 2 => if d.length = 256 ∧ toneMapOk d = true then putToneMap d s else skipEntry s
  | 3 => bootBands d s
  | 4 => if ReqKind.lengthOk .limits d.length ∧ limitsOk (pairs16 d) = true then putLimits (pairs16 d) s else skipEntry s
  | 5 => if ReqKind.lengthOk .follow d.length ∧ followCheck s.light.table d = none then putFollow d s else skipEntry s
  | _ => skipEntry s

/-- The image of a WAVE_IMAGE entry lies within the boot area (R160). -/
def imageInside (addr len : Nat) : Bool := decide (addr + len ≤ Config.bootBytes)

/-- What the walk comes to: an image to read, or its end. -/
inductive WalkEnd where
  | image (addr len : Nat)
  | over
  deriving DecidableEq, Repr

/-- The walk goes on at a position. -/
def bootAt (k : Nat) (s : State) : State := onBoot (fun b => { b with at_ := k }) s

/-- Walks the entries from the position `k` (R160). A WAVE_IMAGE entry whose data length is not 8 is a skipped entry, an
END with a length is skipped, and so on: the model's choices (log 27). `fuel` bounds the entries by their bytes. -/
def walkLoop (entries : List Byte) : Nat → Nat → State → State × WalkEnd
  | 0, _, s => (s, .over)
  | n + 1, k, s =>
    if entries.length ≤ k then (s, .over)
    else if entries.length < k + 3 then (skipEntry s, .over)
    else
      let len := nat16At entries (k + 1)
      let next := k + 3 + len
      let d := (entries.drop (k + 3)).take len
      if entries.length < next then (skipEntry s, .over)
      else if byteAt entries k = 0 then
        (if len = 0 then (s, .over) else walkLoop entries n next (skipEntry s))
      else if byteAt entries k = 6 then
        (if len ≠ 8 then walkLoop entries n next (skipEntry s)
         else if imageInside (nat32At d 0) (nat32At d 4) = false then walkLoop entries n next (badImage s)
         else if nat32At d 4 = 0 then walkLoop entries n next s
         else (bootAt next s, .image (nat32At d 0) (nat32At d 4)))
      else walkLoop entries n next (bootEntry (byteAt entries k) d s)

/-- Bytes of the next boot read (R160). -/
def readSize (left : Nat) : Nat := min 4096 left

/-- Reads on in an image: `left` bytes of it from `next`, after those `got` (R160). -/
def imageRead (next left : Nat) (got : List Byte) (s : State) : State :=
  startBootRead next (readSize left) (onBoot (fun b =>
    { b with image := some { next := next + readSize left, left := left - readSize left, got := got } }) s)

/-- Goes on with the walk: the next image read, or the end of start-up (R160, R161). -/
def bootWalk (s : State) : State :=
  match s.pow.boot with
  | none => s
  | some b =>
    match walkLoop b.entries (b.entries.length + 1) b.at_ s with
    | (s1, .over) => bootWalked s1
    | (s1, .image a n) => imageRead a n [] s1

/-! ## Images (R160, 12.6) -/

/-- Bytes of the record at the front of an image's bytes, by its header (12.6). -/
def recordSize (bs : List Byte) : Nat := 8 + 64 * byteAt bs 2

/-- The header of a record is good: WAVE_BEGIN would take its fields, its units are free, and it ends within the
image, of which `bs` and `left` bytes more remain (R160). -/
def State.recordFits (s : State) (bs : List Byte) (left : Nat) : Bool :=
  s.waveFieldsOk (byteAt bs 0) (byteAt bs 1) (byteAt bs 2) && s.unitsFit (byteAt bs 2)
    && decide (recordSize bs ≤ bs.length + left)

/-- The phase data of the record at the front (12.6). -/
def recordData (bs : List Byte) : List Byte := (bs.drop 8).take (64 * byteAt bs 2)

/-- The CRC-32 of the record at the front is that of its phase data (R160). -/
def recordSumOk (bs : List Byte) : Bool := crc32 (recordData bs) == BitVec.ofNat 32 (nat32At bs 4)

/-- Installs a record as if WAVE_BEGIN, WAVE_DATA and WAVE_END had been taken (R160). -/
def installRecord (bs : List Byte) (s : State) : State :=
  match modeOf (byteAt bs 0) with
  | none => s
  | some m =>
    let w := { s.newWave m (byteAt bs 1) (byteAt bs 2) (byteAt bs 3) with phases := phaseUnitsOf (recordData bs) }
    commitWave w { s with wav := { s.wav with waves := s.wav.waves ++ [w], nextNum := s.wav.nextNum + 1 } }

/-- What the records read so far come to: the image is used up, a record needs bytes that are still to be read after
`rest`, or a record is bad. -/
inductive ImageEnd where
  | over
  | more (rest : List Byte)
  | bad
  deriving DecidableEq, Repr

/-- Judges and installs in turn the records of an image as far as they have been read: `bs` are the bytes not yet
judged and `left` bytes follow them, unread (R160). `fuel` bounds the records by the bytes. -/
def imageLoop (left : Nat) : Nat → List Byte → State → State × ImageEnd
  | 0, _, s => (s, .over)
  | n + 1, bs, s =>
    if bs.length + left = 0 then (s, .over)
    else if bs.length + left < 8 then (s, .bad)
    else if bs.length < 8 then (s, .more bs)
    else if s.recordFits bs left = false then (s, .bad)
    else if bs.length < recordSize bs then (s, .more bs)
    else if recordSumOk bs = false then (s, .bad)
    else imageLoop left n (bs.drop (recordSize bs)) (installRecord bs s)

/-! ## The ends of boot reads (R160, R161) -/

/-- The header has been read (R160). -/
def headerDone (bytes : List Byte) (s : State) : State :=
  let len := nat32At bytes 2
  if nat16At bytes 0 ≠ 0x4D5A ∨ len < 1 ∨ 65536 < len then bootFails s
  else startBootRead 10 (readSize len) (onBoot (fun b =>
    { b with headerRead := true, length := len, sum := BitVec.ofNat 32 (nat32At bytes 6) }) s)

/-- Entry bytes have been read (R160). -/
def entriesDone (b : Boot) (bytes : List Byte) (s : State) : State :=
  let all := b.entries ++ bytes
  let s1 := onBoot (fun b => { b with entries := all }) s
  if all.length < b.length then startBootRead (10 + all.length) (readSize (b.length - all.length)) s1
  else if crc32 all = b.sum then bootWalk s1
  else bootFails s1

/-- The image in hand is done with, and the walk goes on (R160). -/
def imageOver (s : State) : State := bootWalk (onBoot (fun b => { b with image := none }) s)

/-- Bytes of an image have been read: its records are installed in turn, and reading goes on until the image is used up
or a record is bad (R160, log 27). -/
def imageDone (i : BootImage) (bytes : List Byte) (s : State) : State :=
  let all := i.got ++ bytes
  match imageLoop i.left (all.length + 1) all s with
  | (s1, .over) => imageOver s1
  | (s1, .bad) => imageOver (badImage s1)
  | (s1, .more rest) => imageRead i.next i.left rest s1

/-- A boot read has ended OK with its bytes (R160). -/
def bootReadDone (bytes : List Byte) (s : State) : State :=
  match s.pow.boot with
  | none => s
  | some b =>
    match b.image with
    | some i => imageDone i bytes s
    | none => if b.headerRead then entriesDone b bytes s else headerDone bytes s

end Sys2Proof.Machine
end

