-- ==== Sys2Proof/Machine/Report.lean ====
section
/-! DEFINITION. Machine/Report.lean: the bytes of notices, of STATUS and of FETCH_STATUS (R118, R170, R174, R176). -/

namespace Sys2Proof.Machine

open Sys2Proof

/-- An absent field of some width has all its bits set (R176). -/
def absent (n : Nat) : List Byte := List.replicate n 0xFF

/-- A field that may be absent (R176). -/
def optBytes (width : Nat) (enc : Nat → List Byte) : Option Nat → List Byte
  | none => absent width
  | some v => enc v

/-- One byte. -/
def le8 (n : Nat) : List Byte := [byteOf n]

/-- A tag's four bytes. -/
def tagBytes (t : Word32) : List Byte := le32 t.toNat

/-! ## Notices -/

/-- A completion record (12.4). -/
def Completion.bytes (c : Completion) : List Byte :=
  le16 c.id ++ [byteOf c.status.code, byteOf c.mode.code,
    (if c.promoted then 1 else 0) ||| (if c.origin = .cache then 2 else 0)]

/-- A key event record (R176). -/
def KeyRecord.bytes (r : KeyRecord) : List Byte := [byteOf (keyCode r.key), byteOf r.event.code] ++ le32 r.time

/-- A turn record (12.4). -/
def TurnRecord.bytes (r : TurnRecord) : List Byte :=
  [byteOf r.dir.code, if r.miss.isNone then 0 else 1, byteOf (missCode r.miss), byteOf r.source.code]
    ++ tagBytes r.tag
    ++ (match r.dropped with
      | none => absent 1 ++ absent 4
      | some (n, t) => le8 n ++ tagBytes t)
    ++ le32 r.time

/-- A channel's block of a FETCH notice (12.4). -/
def Channel.block (ch : Channel) : List Byte :=
  [byteOf ch.state.code, ch.events, byteOf (failCode ch.reason), byteOf ch.refetch.length]
    ++ le16 ch.stored ++ le16 ch.pfx ++ le16 ch.noCredit ++ le16 ch.outOfWindow ++ le16 ch.duplicate

/-- The fields of a notice after its merged count, as they stand (R30, R52, R77, R79, R96, R110, R130, R157, R172). -/
def State.noticeFields (s : State) : NoticeKind → List Byte
  | .done => listBytes (s.eng.completions.map Completion.bytes)
  | .key => markByte s.keys.lost :: listBytes (s.keys.records.map KeyRecord.bytes)
  | .turn => markByte s.cache.lost :: listBytes (s.cache.records.map TurnRecord.bytes)
  | .temp =>
    (match s.wav.reading with
      | none => le16 0x8000
      | some (t, _) => leInt16 t)
      ++ optBytes 1 le8 s.wav.band ++ [markByte s.wav.outOfRange, markByte s.wav.fault, s.wav.events]
  | .light =>
    le16 s.light.level ++ le16 s.light.levelTarget ++ le8 s.light.warmth ++ le8 s.light.warmthTarget
      ++ le8 s.light.claim ++ le8 s.light.grant
      ++ [byteOf s.light.state.code, markByte s.light.follow, s.light.events]
  | .budget =>
    le16 s.sup.limit ++ optBytes 2 le16 s.sup.volts ++ le16 s.others ++ le8 s.light.grant ++ le8 s.light.claim
      ++ [markByte s.sup.cutMark, s.sup.events]
  | .fetch => s.fetch.channels.flatMap Channel.block
  | .power =>
    [byteOf s.pow.state.code] ++ optBytes 2 le16 s.sup.volts
      ++ [byteOf s.pow.outcome.code, byteOf s.pow.skipped, byteOf (lastWakeCode s.pow.lastWake)]
      ++ optBytes 1 le8 (s.pow.failed.map DrainCond.code) ++ [s.pow.events]
  | .link => le16 s.link.crc ++ le16 s.link.framing ++ le16 s.link.notReady ++ [s.link.events]

/-- The merged count of a kind (R170). -/
def State.mergedOf (s : State) (k : NoticeKind) : Nat := s.link.merged.getD k.index 0

/-- The packet of a notice built now (12.2). -/
def State.noticePacket (s : State) (k : NoticeKind) : List Byte :=
  packet (byteOf (0x90 + k.index)) 0 (byteOf (s.mergedOf k) :: s.noticeFields k)

/-- What building a notice empties in its source (R30, R52, R77, R79, R96, R110, R130, R157, R172). -/
def emptySource (k : NoticeKind) (s : State) : State :=
  match k with
  | .done => { s with eng := { s.eng with completions := [] } }
  | .key => { s with keys := { s.keys with records := [], lost := false } }
  | .turn => { s with cache := { s.cache with records := [], lost := false } }
  | .temp => { s with wav := { s.wav with events := 0 } }
  | .light => s.onLight fun l => { l with events := 0 }
  | .budget => { s with sup := { s.sup with events := 0 } }
  | .fetch => { s with fetch := { s.fetch with channels := s.fetch.channels.map fun ch => { ch with events := 0 } } }
  | .power => s.onPow fun p => { p with events := 0 }
  | .link => { s with link := { s.link with crc := 0, framing := 0, notReady := 0, events := 0 } }

/-- A waiting notice at the head is built, its source emptied and its merged count returned to 0 (R169, R170). -/
def buildNotice (k : NoticeKind) (rest : List OutItem) (s : State) : State :=
  let s1 := emptySource k s
  { s1 with link := { s1.link with out := .built k (s.noticePacket k) :: rest, merged := s1.link.merged.set k.index 0 } }

/-! ## STATUS (R174; the fields in the order of the owning rules, R176) -/

/-- A section: id, length and content (12.3). -/
def statusSection (id : Nat) (content : List Byte) : List Byte := byteOf id :: le16 content.length ++ content

/-- Section 1 (R57). -/
def State.statusPages (s : State) : List Byte := le8 s.freeCount ++ le8 s.cacheHeld ++ le8 s.fetchHeld

/-- An entry in a STATUS section: number, tag and state (R66). -/
def Entry.bytes (e : Entry) : List Byte := le8 e.num ++ tagBytes e.tag ++ [markByte (!e.isOpen)]

/-- Section 2 (R66). -/
def State.statusCache (s : State) : List Byte :=
  listBytes (s.cache.forward.map Entry.bytes) ++ listBytes (s.cache.back.map Entry.bytes) ++ tagBytes s.cache.tag
    ++ le8 s.cache.turnMode.code

/-- Section 3 (R86). -/
def State.statusLight (s : State) : List Byte :=
  le16 s.light.level ++ le16 s.light.levelTarget ++ le8 s.light.warmth ++ le8 s.light.warmthTarget
    ++ le8 s.light.claim ++ le8 s.light.grant ++ [markByte s.light.follow]
    ++ listBytes (s.light.table.map fun p => le16 p.1 ++ le16 p.2)
    ++ le16 s.light.toggleLevel ++ [markByte s.light.toggledOff] ++ optBytes 2 le16 s.light.drainLevel
    ++ le8 s.light.state.code

/-- The grants of the occupied lanes (R104). That they stand lowest lane first, without their lanes' numbers, is the model's
choice (log 56). A lane whose grant a warm reset has dropped is listed with 0 (log 43). -/
def State.laneGrants (s : State) : List (List Byte) :=
  (s.eng.lanes.filter Option.isSome).map fun l => le16 (laneGrant l)

/-- Section 4 (R104). A drive base or store grant that is not held is written as absent (log 42). The form of
a waiting claim is the model's choice (log 61). -/
def State.statusSupply (s : State) : List Byte :=
  le16 s.sup.limit ++ optBytes 2 le16 s.sup.volts
    ++ (if s.sup.filter = [] then absent 2 else le16 (filteredValue s.sup.filter))
    ++ [markByte s.sup.lowFired] ++ listBytes s.laneGrants ++ optBytes 1 le8 s.eng.base ++ optBytes 1 le8 s.store.grant
    ++ le8 s.light.grant ++ le8 s.light.claim
    ++ listBytes (s.sup.waiting.map fun c => le8 c.who.code ++ le16 c.amount)

/-- Section 5 (R134, R138). That the protection stands last is the model's choice (log 61). -/
def State.statusStore (s : State) : List Byte :=
  le8 s.store.flash.code ++ le8 s.queuedOps ++ [markByte s.store.bootProtected]

/-- Whole seconds left on a timer, rounded down (the model's choice of unit, log 53). -/
def State.secondsLeft (s : State) (t : Timer) : Option Nat := t.map fun due => (due - s.now) / 1000000

/-- The sleep order's period and flag (R148). -/
def orderBytes : Option (Nat × Bool) → List Byte
  | none => absent 3 ++ absent 1
  | some (sec, r) => le24 sec ++ [markByte r]

/-- Section 6 (R148). The form of the wake timer, three bytes and 0xFFFFFF when stopped, is the model's choice (log 53). -/
def State.statusPower (s : State) : List Byte :=
  le8 s.pow.state.code ++ optBytes 1 le8 (s.pow.prior.map PowerState.code) ++ orderBytes s.pow.order
    ++ optBytes 3 le24 (s.secondsLeft s.pow.wakeTimer) ++ [markByte s.pow.resleepPending]
    ++ listBytes (s.pow.waking.map fun w => le8 w.code) ++ le8 (lastWakeCode s.pow.lastWake)
    ++ le8 s.pow.outcome.code ++ le8 s.pow.skipped ++ optBytes 1 le8 (s.pow.failed.map DrainCond.code)

/-- Requests of a stream waiting in the inbound list (R174). -/
def State.waitingIn (s : State) (st : Stream) : Nat := s.link.inbound.countP fun r => r.kind.stream == st

/-- The item is a response. -/
def OutItem.isResponse : OutItem → Bool
  | .response _ => true
  | _ => false

/-- The item is a waiting notice. -/
def OutItem.isWaiting : OutItem → Bool
  | .waiting _ => true
  | _ => false

/-- Section 7 (R174). That the waiting requests and the packets of the outbound queue are written as counts is the model's
choice (log 61). -/
def State.statusLink (s : State) : List Byte :=
  le8 s.link.opened
    ++ [Stream.display, .light, .fetch, .store, .control].flatMap (fun st => le8 (s.waitingIn st))
    ++ le8 (s.link.out.countP OutItem.isResponse) ++ le8 (s.link.out.countP OutItem.isWaiting)
    ++ s.link.merged.flatMap le8 ++ le8 s.link.doneMod.count ++ le16 s.link.fetchMod.count
    ++ le16 s.link.crc ++ le16 s.link.framing ++ le16 s.link.notReady

/-- The STATUS body (R174, 12.3). -/
def State.statusBody (s : State) : List Byte :=
  statusSection 1 s.statusPages ++ statusSection 2 s.statusCache ++ statusSection 3 s.statusLight
    ++ statusSection 4 s.statusSupply ++ statusSection 5 s.statusStore ++ statusSection 6 s.statusPower
    ++ statusSection 7 s.statusLink

/-! ## FETCH_STATUS (R118) -/

/-- The manifest fields of FETCH_STATUS, 0 when there is none. -/
def manifestBytes : Option Manifest → List Byte
  | none => le32 0 ++ le8 0 ++ le32 0 ++ le8 0 ++ le16 0
  | some m => le32 m.length ++ le8 m.chunkKiB ++ le32 m.base ++ le8 m.window ++ le16 m.mark

/-- The chunk states of FETCH_STATUS: a counted list, or one absent byte for a CLOSED channel (log 46). -/
def Channel.chunkBytes (ch : Channel) : List Byte :=
  match ch.manifest with
  | none => absent 1
  | some _ => listBytes (ch.window.map fun i => le8 (ch.chunk i).state.code)

/-- A store operation of the channel is in flight (R118). -/
def State.inFlight (s : State) (c : Nat) : Bool :=
  match s.fetch.slot with
  | some o => o.channel == c
  | none => false

/-- The FETCH_STATUS body (R118). -/
def State.fetchStatusBody (s : State) (c : Nat) : List Byte :=
  let ch := s.channel c
  le8 ch.state.code ++ manifestBytes ch.manifest ++ le16 ch.pfx ++ le16 ch.stored ++ le8 (s.credits c)
    ++ le16 ch.cursor ++ listBytes (ch.refetch.map le16)
    ++ le16 ch.noCredit ++ le16 ch.outOfWindow ++ le16 ch.duplicate
    ++ [byteOf (failCode ch.reason), markByte ch.reached, markByte (s.inFlight c)] ++ ch.chunkBytes

end Sys2Proof.Machine
end

