-- ==== Sys2Proof/Machine/Owner.lean ====
section
/-! DEFINITION. Machine/Owner.lean: how an owner takes a request (R167). -/

namespace Sys2Proof.Machine

open Sys2Proof

/-- The oldest request of a stream in the inbound list (R167). -/
def State.oldest (s : State) (st : Stream) : Option Request := s.link.inbound.find? fun r => r.kind.stream == st

/-- The owner of a stream is free to take (R167): not DISPLAY while a packet stalls (R14), not STORE while the queue
holds 4 host operations (R136). In STARTING and SLEEP no stream takes a request (R159, R146). -/
def State.ownerFree (s : State) (st : Stream) : Bool :=
  s.pow.state.awake && match st with
    | .display => s.img.stall.isNone
    | .store => decide (s.hostOps < 4)
    | _ => true

/-- The request that a command of a kind takes: the oldest of its stream, if it is of that kind and the owner is
free (R167, log 1). -/
def State.taken (s : State) (k : ReqKind) : Option Request :=
  match s.oldest k.stream with
  | none => none
  | some r => if r.kind = k ∧ s.ownerFree k.stream = true then some r else none

/-- A taken request leaves the inbound list; a DISPLAY request takes its place in the order (R35, R167). -/
def leaveInbound (st : Stream) (s : State) : State :=
  { s with link := { s.link with inbound := s.link.inbound.eraseP fun r => r.kind.stream == st },
           displayPlace := if st = .display then s.displayPlace + 1 else s.displayPlace }

/-- The owner takes a request of a kind and serves it with `f` (R167). Without one nothing changes (log 2). -/
def takeRequest (k : ReqKind) (f : Request → State → State) (s : State) : State :=
  match s.taken k with
  | none => s
  | some r => f r (leaveInbound k.stream s)

end Sys2Proof.Machine
end

