-- ==== Sys2Proof/Machine/ServeControl.lean ====
section
/-! DEFINITION. Machine/ServeControl.lean: how power control serves the requests of the CONTROL stream (R102,
R149, R150, R173, R174). -/

namespace Sys2Proof.Machine

open Sys2Proof

/-- The response body of SET and GET: setting number and value in force (12.3). -/
def State.settingBody (s : State) (st : Setting) : List Byte := le8 (settingRow st).number ++ leInt32 (s.setting st)

/-- Serves SET (R173). -/
def serveSet (r : Request) (s : State) : State :=
  match settingOfNumber (byteAt r.body 0) with
  | none => respond r .range [] s
  | some st =>
    let s1 := storeSetting st (signed32 (nat32At r.body 1)) s
    respond r .ok (s1.settingBody st) s1

/-- Serves GET (R173). -/
def serveGet (r : Request) (s : State) : State :=
  match settingOfNumber (byteAt r.body 0) with
  | none => respond r .range [] s
  | some st => respond r .ok (s.settingBody st) s

/-- Serves STATUS (R174). -/
def serveStatus (r : Request) (s : State) : State := respond r .ok s.statusBody s

/-- Serves LIMITS (R102). -/
def serveLimits (r : Request) (s : State) : State :=
  if limitsOk (pairs16 r.body) then respond r .ok [] (putLimits (pairs16 r.body) s) else respond r .range [] s

/-- Serves DOZE (R149). -/
def serveDoze (r : Request) (s : State) : State :=
  match s.pow.state with
  | .active => respond r .ok [] (s.onPow fun p => { p with state := .doze })
  | .doze => respond r .ok [] s
  | _ => respond r .state [] s

/-- Serves SLEEP: wake period (4), resleep (1) (R150, R176). The response is queued before the conditions are
judged. -/
def serveSleep (r : Request) (s : State) : State :=
  if 86400 < nat32At r.body 0 ∨ 1 < byteAt r.body 4 then respond r .range [] s
  else match s.pow.state with
    | .active | .doze => drainStart (nat32At r.body 0) (byteAt r.body 4 == 1) (respond r .ok [] s)
    | _ => respond r .state [] s

/-- Serves WAKE (R149, R153, R156, log 48). -/
def serveWake (r : Request) (s : State) : State := respond r .ok [] (hostArrives s)

end Sys2Proof.Machine
end

