-- ==== Sys2Proof/Machine/ServeDisplay.lean ====
section
/-! DEFINITION. Machine/ServeDisplay.lean: how the update engine serves PIXELS, TONE_MAP, UPDATE, ABORT and the
page-cache requests of the DISPLAY stream (R8 to R14, R33, R34, R49, R67 to R76). -/

namespace Sys2Proof.Machine

open Sys2Proof

/-- The rectangle whose four corners stand from an offset on (12.3). -/
def rectAt (b : List Byte) (i : Nat) : Rect :=
  { x0 := nat16At b i, y0 := nat16At b (i + 2), x1 := nat16At b (i + 4), y1 := nat16At b (i + 6) }

/-- The corners are in order and the rectangle has a pixel on the panel (R9 checks 3 and 4, R33 checks 4 and 5). -/
def Rect.legal (r : Rect) : Bool :=
  decide (r.x0 ≤ r.x1) && decide (r.y0 ≤ r.y1) && decide (r.x0 < Config.panelWidth) && decide (r.y0 < Config.panelHeight)

/-- Pixels of a rectangle before clipping. -/
def Rect.pixels (r : Rect) : Nat := (r.x1 - r.x0 + 1) * (r.y1 - r.y0 + 1)

/-! ## PIXELS (R9 to R14) -/

/-- The payload length a rectangle and format need (R9 check 5). -/
def payloadBytes (level4 : Bool) (n : Nat) : Nat := if level4 then (n + 1) / 2 else n

/-- The entry that a number names exists and is OPEN (R9 check 6). -/
def State.entryOpen (s : State) (n : Nat) : Bool :=
  match s.cache.find n with
  | some e => e.isOpen
  | none => false

/-- The first failing check of PIXELS (R9). -/
def State.pixelsCheck (s : State) (b : List Byte) : Option Code :=
  let dest := byteAt b 0
  if ¬ (dest < 8 ∨ dest = 0xFF) ∨ 1 < byteAt b 1 ∨ (rectAt b 2).legal = false then some .range
  else if (b.drop 10).length ≠ payloadBytes (byteAt b 1 == 1) (rectAt b 2).pixels ∨ 4096 < (b.drop 10).length then
    some .length
  else if dest ≠ 0xFF ∧ s.entryOpen dest = false then some .state
  else none

/-- The converted packet of a PIXELS body (R10). -/
def State.convertPixels (s : State) (b : List Byte) : HeldPacket :=
  let level4 := byteAt b 1 == 1
  { rect := rectAt b 2, level4 := level4, levels := levelsOf s.img.toneMap level4 (rectAt b 2).pixels (b.drop 10),
    payload := (b.drop 10).length, place := s.displayPlace }

/-- Writes a packet into an OPEN entry and marks its pixels (R11, R69). -/
def writeEntry (n : Nat) (p : HeldPacket) (s : State) : State :=
  s.onCache fun c => c.modify n fun e => { e with written := writeCells e.written p.rect p.levels }

/-- Serves PIXELS (R9 to R14). -/
def servePixels (r : Request) (s : State) : State :=
  match s.pixelsCheck r.body with
  | some c => respond r c [] s
  | none =>
    let p := s.convertPixels r.body
    if byteAt r.body 0 = 0xFF then placePacket r p s else respond r .ok [] (writeEntry (byteAt r.body 0) p s)

/-! ## TONE_MAP (R8) -/

/-- Serves TONE_MAP (R8). -/
def serveToneMap (r : Request) (s : State) : State :=
  if toneMapOk r.body then respond r .ok [] (putToneMap r.body s) else respond r .range [] s

/-! ## UPDATE (R33, R34) -/

/-- The first failing check of UPDATE, with its mode (R33). -/
def State.updateCheck (s : State) (b : List Byte) : Code ⊕ Mode :=
  match modeOf (byteAt b 10) with
  | none => .inl .range
  | some m =>
    if nat16At b 0 = 0 ∨ 1 < byteAt b 11 ∨ (rectAt b 2).legal = false then .inl .range
    else if s.admits = false then .inl .full
    else .inr m

/-- Serves UPDATE: the admission is a look of the arbiter (R33, R34, R37). -/
def serveUpdate (r : Request) (s : State) : State :=
  match s.updateCheck r.body with
  | .inl c => respond r c [] s
  | .inr m =>
    lookPass (respond r .ok [] (appendUpdate (nat16At r.body 0) (rectAt r.body 2).clip m (byteAt r.body 11 == 1) .host
      s.displayPlace s))

/-! ## ABORT (R49) -/

/-- Serves ABORT (R49). The count is of the state before. The response is queued after the notices (log 38). -/
def serveAbort (r : Request) (s : State) : State :=
  if 1 < byteAt r.body 0 then respond r .range [] s
  else
    let id := if byteAt r.body 0 = 0 then some (nat16At r.body 1) else none
    respond r .ok [byteOf (s.abortCount id)] (abortNow id s)

/-! ## PAGE_TAG (R67) -/

/-- Serves PAGE_TAG (R67): tag, then mode (log 16). -/
def servePageTag (r : Request) (s : State) : State :=
  match pageModeOf (byteAt r.body 4) with
  | none => respond r .range [] s
  | some m =>
    respond r .ok [] (s.onCache fun c => { c with tag := BitVec.ofNat 32 (nat32At r.body 0), turnMode := m })

/-! ## CACHE_OPEN, CACHE_READY, CACHE_DROP (R68 to R71) -/

/-- The entry that CACHE_OPEN makes (R68). -/
def State.newEntry (s : State) (m : Mode) (b : List Byte) : Entry :=
  { num := s.cache.freeNumber, tag := BitVec.ofNat 32 (nat32At b 3), turnMode := m, fill := some (byteAt b 2),
    isOpen := true, written := [], plane := [] }

/-- Opens an entry at the tail of a list (R60, R68). -/
def openEntry (d : Dir) (m : Mode) (b : List Byte) (s : State) : State :=
  let e := s.newEntry m b
  let s1 := s.onCache fun c => c.setList d (c.list d ++ [e])
  { s1 with pool := takeSlabs (.entry e.num) Config.planeSlabs s1.pool }

/-- Serves CACHE_OPEN (R68): list, mode, fill, tag (12.3). -/
def serveCacheOpen (r : Request) (s : State) : State :=
  match dirOf (byteAt r.body 0), pageModeOf (byteAt r.body 1) with
  | some d, some m =>
    if 15 < byteAt r.body 2 then respond r .range [] s
    else if d.capacity ≤ (s.cache.list d).length then respond r .full [] s
    else if s.availableToCache < Config.planeSlabs then respond r .room [byteOf s.availableToCache] s
    else respond r .ok [byteOf s.cache.freeNumber] (openEntry d m r.body s)
  | _, _ => respond r .range [] s

/-- An entry becomes READY (R70). -/
def Entry.readied (e : Entry) : Entry :=
  { e with plane := planeFill (e.fill.getD Config.blankLevel) e.written, written := [], isOpen := false }

/-- Serves CACHE_READY (R70). -/
def serveCacheReady (r : Request) (s : State) : State :=
  if 7 < byteAt r.body 0 then respond r .range [] s
  else if s.entryOpen (byteAt r.body 0) then
    respond r .ok [] (s.onCache fun c => c.modify (byteAt r.body 0) Entry.readied)
  else respond r .state [] s

/-- Drops one entry (R71). -/
def dropOne (n : Nat) (s : State) : State :=
  freeEntries [n] (s.onCache fun c =>
    { c with forward := c.forward.filter fun e => e.num != n, back := c.back.filter fun e => e.num != n })

/-- Drops a list (R71). -/
def dropList (d : Dir) (s : State) : State :=
  freeEntries ((s.cache.list d).map fun e => e.num) (s.onCache fun c => c.setList d [])

/-- Serves CACHE_DROP (R71). -/
def serveCacheDrop (r : Request) (s : State) : State :=
  match byteAt r.body 0 with
  | 0 =>
    if 7 < byteAt r.body 1 then respond r .range [] s
    else if (s.cache.find (byteAt r.body 1)).isSome then respond r .ok [1] (dropOne (byteAt r.body 1) s)
    else respond r .state [] s
  | 1 => respond r .ok [byteOf s.cache.forward.length] (dropList .forward s)
  | 2 => respond r .ok [byteOf s.cache.back.length] (dropList .back s)
  | _ => respond r .range [] s

/-! ## TURN (R76) -/

/-- The body of a TURN response: outcome, reason and the target's tag after the attempt (R76, 12.3). -/
def turnBody (m : Option Miss) (tag : Word32) : List Byte :=
  [if m.isNone then 0 else 1, byteOf (missCode m)] ++ tagBytes tag

/-- Serves TURN (R76). The response is queued after the notices (log 38). -/
def serveTurn (r : Request) (s : State) : State :=
  match dirOf (byteAt r.body 0) with
  | none => respond r .range [] s
  | some d =>
    let s1 := turnAttempt d .host s.displayPlace s
    respond r .ok (turnBody (s.turnMiss d) s1.cache.tag) s1

end Sys2Proof.Machine
end

