-- ==== Sys2Proof/Machine/ServeFetch.lean ====
section
/-! DEFINITION. Machine/ServeFetch.lean: how the fetch engine serves the requests of the FETCH stream (R114 to R118). -/

namespace Sys2Proof.Machine

open Sys2Proof

/-! ## FETCH_OPEN (R113, R114) -/

/-- The chunk sizes in KiB (R113). -/
def chunkSizes : List Nat := [4, 8, 16, 32, 64]

/-- The manifest of a FETCH_OPEN body: channel, chunk size, window, length, base, prefix mark (12.3). -/
def manifestOf (b : List Byte) : Manifest :=
  let size := byteAt b 1 * 1024
  let count := (nat32At b 3 + size - 1) / size
  { length := nat32At b 3, chunkKiB := byteAt b 1, count := count, base := nat32At b 7, window := byteAt b 2,
    mark := nat16At b 11, sums := List.replicate count none }

/-- The fields are in range (R114 checks 3 and 4). -/
def Manifest.legal (m : Manifest) : Bool :=
  decide (1 ≤ m.length) && decide (m.length ≤ 268435456) && m.base % Config.sectorBytes == 0
    && decide (m.count ≤ 4096) && decide (1 ≤ m.window) && decide (m.window ≤ 64) && decide (m.mark ≤ m.count)
    && decide (m.base + m.length ≤ Config.storeBytes)

/-- A sector of the store range is another open channel's (R114 check 6). -/
def State.rangeTaken (s : State) (m : Manifest) : Bool :=
  s.fetch.channels.any fun ch => ch.state != .closed && match ch.manifest with
    | some q => decide (q.first ≤ m.last) && decide (m.first ≤ q.last)
    | none => false

/-- The first failing check of FETCH_OPEN (R114). -/
def State.fetchOpenCheck (s : State) (b : List Byte) : Option Code :=
  if 3 < byteAt b 0 then some .range
  else if (s.channel (byteAt b 0)).state ≠ .closed then some .state
  else if chunkSizes.contains (byteAt b 1) = false then some .range
  else if (manifestOf b).legal = false then some .range
  else if (manifestOf b).first < 8 then some .shielded
  else if s.rangeTaken (manifestOf b) then some .inUse
  else none

/-- The record of a channel just opened (R114). -/
def openedChannel (m : Manifest) (ch : Channel) : Channel :=
  { Channel.reset with
    state := .loading, manifest := some m,
    chunks := List.replicate m.count { state := .missing, bad := 0, retry := false, payload := [] },
    cursor := m.first, events := ch.events }

/-- Serves FETCH_OPEN (R114). -/
def serveFetchOpen (r : Request) (s : State) : State :=
  match s.fetchOpenCheck r.body with
  | some c => respond r c [] s
  | none => respond r .ok [] (s.onChannel (byteAt r.body 0) (openedChannel (manifestOf r.body)))

/-! ## FETCH_SUMS (R115) -/

/-- Stores sums from an index on (R115). -/
def putSums (first : Nat) (sums : List Word32) (m : Manifest) : Manifest :=
  { m with sums := m.sums.take first ++ sums.map some ++ m.sums.drop (first + sums.length) }

/-- Serves FETCH_SUMS: channel, first index, sums (R115, 12.3). -/
def serveFetchSums (r : Request) (s : State) : State :=
  let c := byteAt r.body 0
  let sums := words32 (r.body.drop 3)
  if 3 < c then respond r .range [] s
  else if (s.channel c).state ≠ .loading then respond r .state [] s
  else if sums = [] ∨ 1024 < sums.length then respond r .length [] s
  else match (s.channel c).manifest with
    | none => respond r .state [] s
    | some m =>
      if m.count < nat16At r.body 1 + sums.length then respond r .range [] s
      else respond r .ok [] (s.onChannel c fun ch => { ch with manifest := some (putSums (nat16At r.body 1) sums m) })

/-! ## FETCH_ARM (R116) -/

/-- Every chunk's sum has been loaded (R116). -/
def Channel.allLoaded (ch : Channel) : Bool :=
  match ch.manifest with
  | none => false
  | some m => m.sums.all Option.isSome

/-- Serves FETCH_ARM: a credit point and a scheduling point (R116). -/
def serveFetchArm (r : Request) (s : State) : State :=
  let c := byteAt r.body 0
  if 3 < c then respond r .range [] s
  else if (s.channel c).state ≠ .loading then respond r .state [] s
  else if (s.channel c).allLoaded = false then respond r .range [] s
  else
    schedulePoint (creditPoint (respond r .ok [] (s.onChannel c fun ch => { ch with state := .armed })))

/-! ## FETCH_CLOSE (R117) -/

/-- The credits of a channel pass to FREE (R61). -/
def freeCredits (c : Nat) (s : State) : State := { s with pool := freeSlabs (fun h => h == .credit c) s.pool }

/-- An ARMED channel is closed: CLOSING, and CLOSED at once if nothing is in flight (R117). -/
def closeArmed (c : Nat) (s : State) : State :=
  creditPoint (closingCheck c ((freeCredits c s).onChannel c fun ch => { ch with state := .closing }))

/-- Serves FETCH_CLOSE (R117). The response is queued after the notice (log 38). -/
def serveFetchClose (r : Request) (s : State) : State :=
  let c := byteAt r.body 0
  if 3 < c then respond r .range [] s
  else match (s.channel c).state with
    | .closed => respond r .state [] s
    | .loading | .finished | .failed => respond r .ok [] (becomeClosed c s)
    | .armed => respond r .ok [] (closeArmed c s)
    | .closing => respond r .ok [] s

/-! ## FETCH_STATUS (R118) -/

/-- Serves FETCH_STATUS (R118). -/
def serveFetchStatus (r : Request) (s : State) : State :=
  if 3 < byteAt r.body 0 then respond r .range [] s
  else respond r .ok (s.fetchStatusBody (byteAt r.body 0)) s

end Sys2Proof.Machine
end

