-- ==== Sys2Proof/Machine/ServeLight.lean ====
section
/-! DEFINITION. Machine/ServeLight.lean: how the front light serves the requests of the LIGHT stream (R87, R93). -/

namespace Sys2Proof.Machine

open Sys2Proof

/-- The targets of a LIGHT request (R87). -/
def lightTargets (level warmth : Nat) (l : FrontLight) : FrontLight :=
  { l with levelTarget := level, warmthTarget := warmth, follow := false, settle := none, step := none,
           toggledOff := false, drainLevel := none }

/-- Serves LIGHT: level (2), warmth (1) (R87, log 16). -/
def serveLight (r : Request) (s : State) : State :=
  let level := min 1000 (nat16At r.body 0)
  let warmth := byteAt r.body 2
  respond r .ok (le16 level ++ le8 warmth) (targetsChanged (s.onLight (lightTargets level warmth)))

/-- Serves FOLLOW (R93). -/
def serveFollow (r : Request) (s : State) : State :=
  match followCheck s.light.table r.body with
  | some c => respond r c [] s
  | none => respond r .ok [] (putFollow r.body s)

end Sys2Proof.Machine
end

