-- ==== Sys2Proof/Machine/ServeStore.lean ====
section
/-! DEFINITION. Machine/ServeStore.lean: how the book store serves the requests of the STORE stream (R135, R136). -/

namespace Sys2Proof.Machine

open Sys2Proof

/-! ## Requests (R135) -/

/-- The suspend test of an operation that has joined: a READ makes it, another does not (R142). -/
def joinTest (k : OpKind) (s : State) : State :=
  match k with
  | .read _ _ => suspendTest s
  | .program _ _ | .erase _ => s

/-- An accepted host operation joins the queue: a READ makes the suspend test, and joining is a selection point (R136,
R139, R142). -/
def hostJoins (r : Request) (k : OpKind) (s : State) : State := selectPoint (joinTest k (joinQueue (.host r) k s))

/-- Check 5 of R135, then the queue. -/
def joinOrFault (r : Request) (k : OpKind) (s : State) : State :=
  if s.store.flash = .offline then respond r .fault [] s else hostJoins r k s

/-- Serves STORE_READ: address, length (R135, 12.3). -/
def serveStoreRead (r : Request) (s : State) : State :=
  let a := nat32At r.body 0
  let n := nat16At r.body 4
  if n < 1 ∨ 4096 < n ∨ Config.storeBytes < a + n then respond r .range [] s
  else joinOrFault r (.read a n) s

/-- The first failing check of STORE_PROGRAM before check 5 (R135). -/
def State.programCheck (s : State) (a n : Nat) : Option Code :=
  if n < 1 ∨ 4096 < n then some .length
  else if Config.storeBytes < a + n ∨ a / Config.pageBytes ≠ (a + n - 1) / Config.pageBytes then some .range
  else if s.store.bootProtected = true ∧ a < Config.bootBytes then some .shielded
  else if s.sectorInUse (a / Config.sectorBytes) then some .inUse
  else none

/-- Serves STORE_PROGRAM: address, data (R135, 12.3). -/
def serveStoreProgram (r : Request) (s : State) : State :=
  let a := nat32At r.body 0
  let d := r.body.drop 4
  match s.programCheck a d.length with
  | some c => respond r c [] s
  | none => joinOrFault r (.program a d) s

/-- The first failing check of STORE_ERASE before check 5 (R135). -/
def State.eraseCheck (s : State) (sec : Nat) : Option Code :=
  if 4095 < sec then some .range
  else if s.store.bootProtected = true ∧ sec < 8 then some .shielded
  else if s.sectorInUse sec then some .inUse
  else none

/-- Serves STORE_ERASE: sector (R135, 12.3). -/
def serveStoreErase (r : Request) (s : State) : State :=
  let sec := nat16At r.body 0
  match s.eraseCheck sec with
  | some c => respond r c [] s
  | none => joinOrFault r (.erase sec) s

end Sys2Proof.Machine
end

