-- ==== Sys2Proof/Machine/ServeWaveforms.lean ====
section
/-! DEFINITION. Machine/ServeWaveforms.lean: how the update engine serves the waveform requests of the DISPLAY
stream (R20 to R26). -/

namespace Sys2Proof.Machine

open Sys2Proof

/-- Serves WAVE_BEGIN (R20): mode, band, phase count, tile current (log 16). -/
def serveWaveBegin (r : Request) (s : State) : State :=
  let b := r.body
  if s.openLoad.isSome then respond r .state [] s
  else match modeOf (byteAt b 0) with
    | none => respond r .range [] s
    | some m =>
      if s.waveFieldsOk (byteAt b 0) (byteAt b 1) (byteAt b 2) = false then respond r .range [] s
      else if s.unitsFit (byteAt b 2) = false then respond r .room (le16 s.freeUnits) s
      else respond r .ok [] (openWave m (byteAt b 1) (byteAt b 2) (byteAt b 3) s)

/-- Serves WAVE_DATA (R21). -/
def serveWaveData (r : Request) (s : State) : State :=
  match s.openLoad with
  | none => respond r .state [] s
  | some w =>
    let run := r.body.drop 1
    if run.length % 64 ≠ 0 then respond r .length [] s
    else if w.phases.length < byteAt r.body 0 + run.length / 64 then respond r .range [] s
    else respond r .ok [] (fillWave (byteAt r.body 0) (phaseUnitsOf run) w s)

/-- Serves WAVE_END (R22). -/
def serveWaveEnd (r : Request) (s : State) : State :=
  match s.openLoad with
  | none => respond r .state [] s
  | some w =>
    if w.sum = BitVec.ofNat 32 (nat32At r.body 0) then respond r .ok [] (commitWave w s)
    else respond r .range [] (discardLoad s)

/-- Serves WAVE_DROP (R24). -/
def serveWaveDrop (r : Request) (s : State) : State :=
  match modeOf (byteAt r.body 0) with
  | none => respond r .range [] s
  | some m =>
    if s.wav.table.count ≤ byteAt r.body 1 then respond r .range [] s
    else respond r .ok [] (retireSlot m (byteAt r.body 1) s)

/-- Serves BANDS: an accepted one requests a TEMP conversion (R26, R28). -/
def serveBands (r : Request) (s : State) : State :=
  match bandsCheck r.body with
  | some c => respond r c [] s
  | none => respond r .ok [] (tempRequest (putBands r.body s))

end Sys2Proof.Machine
end

