-- ==== Sys2Proof/Machine/Take.lean ====
section
/-! DEFINITION. Machine/Take.lean: the takes that fall due in an event (R167), and how every command ends. -/

namespace Sys2Proof.Machine

open Sys2Proof

/-- How the owner of a kind serves its requests. -/
def serve : ReqKind → Request → State → State
  | .pixels => servePixels
  | .toneMap => serveToneMap
  | .update => serveUpdate
  | .abort => serveAbort
  | .pageTag => servePageTag
  | .cacheOpen => serveCacheOpen
  | .cacheReady => serveCacheReady
  | .cacheDrop => serveCacheDrop
  | .turn => serveTurn
  | .waveBegin => serveWaveBegin
  | .waveData => serveWaveData
  | .waveEnd => serveWaveEnd
  | .waveDrop => serveWaveDrop
  | .bands => serveBands
  | .light => serveLight
  | .follow => serveFollow
  | .fetchOpen => serveFetchOpen
  | .fetchSums => serveFetchSums
  | .fetchArm => serveFetchArm
  | .fetchClose => serveFetchClose
  | .fetchStatus => serveFetchStatus
  | .storeRead => serveStoreRead
  | .storeProgram => serveStoreProgram
  | .storeErase => serveStoreErase
  | .set => serveSet
  | .get => serveGet
  | .status => serveStatus
  | .limits => serveLimits
  | .doze => serveDoze
  | .sleep => serveSleep
  | .wake => serveWake

/-- The kind of the oldest waiting request whose owner is free to take it (R167). Streams are independent of one another,
so the arrival order among them is the model's choice (log 1). -/
def State.due (s : State) : Option ReqKind :=
  (s.link.inbound.find? fun r => s.ownerFree r.kind.stream).map Request.kind

/-- While an owner is free and its stream has a request waiting, the owner takes the oldest (R167): at most `n` takes. -/
def takeDue : Nat → State → State
  | 0, s => s
  | n + 1, s =>
    match s.due with
    | none => s
    | some k => takeDue n (takeRequest k (serve k) s)

/-- How every command ends. The requests that the event brought in, or whose owner it made free, are taken in it (R167,
log 1); then power control judges the drain and resleep conditions (R151, R156). -/
def finish (s : State) : State := judgePower (takeDue s.link.inbound.length s)

/-- What every command answers: a next state. -/
def event (s : State) : Host.Outcome State Fault Refusal := .next (finish s)

end Sys2Proof.Machine
end

