-- ==== Sys2Proof/Machine/Control.lean ====
section
/-! DEFINITION. Machine/Control.lean: the requests of the CONTROL stream (R102, R149, R150, R173, R174). -/

namespace Sys2Proof.Machine

open Sys2Proof

/-- SET (R173). -/
def execSet (s : State) : Host.Outcome State Fault Refusal := event (takeRequest .set serveSet s)

/-- GET (R173). -/
def execGet (s : State) : Host.Outcome State Fault Refusal := event (takeRequest .get serveGet s)

/-- STATUS (R174). -/
def execStatus (s : State) : Host.Outcome State Fault Refusal := event (takeRequest .status serveStatus s)

/-- LIMITS (R102). -/
def execLimits (s : State) : Host.Outcome State Fault Refusal := event (takeRequest .limits serveLimits s)

/-- DOZE (R149). -/
def execDoze (s : State) : Host.Outcome State Fault Refusal := event (takeRequest .doze serveDoze s)

/-- SLEEP (R150). -/
def execSleep (s : State) : Host.Outcome State Fault Refusal := event (takeRequest .sleep serveSleep s)

/-- WAKE (R149). -/
def execWake (s : State) : Host.Outcome State Fault Refusal := event (takeRequest .wake serveWake s)

end Sys2Proof.Machine
end

