-- ==== Sys2Proof/Machine/Display.lean ====
section
/-! DEFINITION. Machine/Display.lean: PIXELS, TONE_MAP, UPDATE, ABORT and the page-cache requests of the DISPLAY stream
(R8 to R14, R33, R34, R49, R67 to R76). -/

namespace Sys2Proof.Machine

open Sys2Proof

/-- PIXELS (R9). -/
def execPixels (s : State) : Host.Outcome State Fault Refusal := event (takeRequest .pixels servePixels s)

/-- TONE_MAP (R8). -/
def execToneMap (s : State) : Host.Outcome State Fault Refusal := event (takeRequest .toneMap serveToneMap s)

/-- UPDATE (R33). -/
def execUpdate (s : State) : Host.Outcome State Fault Refusal := event (takeRequest .update serveUpdate s)

/-- ABORT (R49). -/
def execAbort (s : State) : Host.Outcome State Fault Refusal := event (takeRequest .abort serveAbort s)

/-- PAGE_TAG (R67). -/
def execPageTag (s : State) : Host.Outcome State Fault Refusal := event (takeRequest .pageTag servePageTag s)

/-- CACHE_OPEN (R68). -/
def execCacheOpen (s : State) : Host.Outcome State Fault Refusal := event (takeRequest .cacheOpen serveCacheOpen s)

/-- CACHE_READY (R70). -/
def execCacheReady (s : State) : Host.Outcome State Fault Refusal := event (takeRequest .cacheReady serveCacheReady s)

/-- CACHE_DROP (R71). -/
def execCacheDrop (s : State) : Host.Outcome State Fault Refusal := event (takeRequest .cacheDrop serveCacheDrop s)

/-- TURN (R76). -/
def execTurn (s : State) : Host.Outcome State Fault Refusal := event (takeRequest .turn serveTurn s)

end Sys2Proof.Machine
end

