-- ==== Sys2Proof/Machine/Events.lean ====
section
/-! DEFINITION. Machine/Events.lean: the frame clock, the converter, the timers of the waveform store, the supply
budget, the page link and power control, and the resets (R28, R31, R45, R99, R152 to R164, R171). -/

namespace Sys2Proof.Machine

open Sys2Proof

/-- FRAME_BOUNDARY (R45). -/
def execFrameBoundary (s : State) : Host.Outcome State Fault Refusal := event (expire s.eng.boundary boundaryNow s)

/-! ## Converter (R28, R31, R94, R100) -/

/-- A TEMP conversion's result; a good reading is a look of the arbiter (R28, R37). -/
def tempEnds (raw : Nat) (s : State) : State := if goodTemp raw then lookPass (tempReading raw s) else tempReading raw s

/-- A BATT conversion's result: a sample, and the sample timer armed for 1 s (R99, R100). In STARTING the timer does not
run, and the first sample is followed by the boot-table read (R159). -/
def battEnds (raw : Nat) (s : State) : State :=
  let s1 := battSample raw s
  if s.pow.state = .starting then (if s.pow.boot.isNone then bootBegin s1 else s1)
  else { s1 with sup := { s1.sup with sample := s.inSec 1 } }

/-- The result goes to the channel's owner (R31). -/
def channelEnds (c : Chan) (raw : Nat) (s : State) : State :=
  match c with
  | .temp => tempEnds raw s
  | .batt => battEnds raw s
  | .amb => ambReading raw s

/-- A conversion ends: the channel is the last served, its owner takes the value, and the converter chooses anew
(R31). -/
def conversionNow (raw : Nat) (s : State) : State :=
  match s.conv.busy with
  | none => s
  | some (c, due) =>
    let s1 := s.upTo due
    convKick (channelEnds c raw { s1 with conv := { s1.conv with busy := none, last := c } })

/-- CONVERSION_END (R31). -/
def execConversionEnd (raw : Nat) (s : State) : Host.Outcome State Fault Refusal := event (conversionNow raw s)

/-- The temperature interval timer expires (R28). -/
def tempIntervalNow (s : State) : State := tempRequest { s with wav := { s.wav with interval := none } }

/-- TEMP_INTERVAL_EXPIRY (R28). -/
def execTempIntervalExpiry (s : State) : Host.Outcome State Fault Refusal := event (expire s.wav.interval tempIntervalNow s)

/-- The sample timer expires (R99). -/
def sampleNow (s : State) : State := convRequest .batt { s with sup := { s.sup with sample := none } }

/-- SAMPLE_TIMER_EXPIRY (R99). -/
def execSampleTimerExpiry (s : State) : Host.Outcome State Fault Refusal := event (expire s.sup.sample sampleNow s)

/-! ## Moderation (R171) -/

/-- The settle timer of a kind stops at its expiry. -/
def settleFires (m : Moderated) (s : State) : State :=
  moderationExpiry m (s.moderation m).settle (s.setModeration m { s.moderation m with settle := none })

/-- MODERATION_SETTLE_EXPIRY (R171). -/
def execModerationSettleExpiry (kind : Moderated) (s : State) : Host.Outcome State Fault Refusal :=
  event (settleFires kind s)

/-- The absolute timer of a kind stops at its expiry. -/
def absoluteFires (m : Moderated) (s : State) : State :=
  moderationExpiry m (s.moderation m).absolute (s.setModeration m { s.moderation m with absolute := none })

/-- MODERATION_ABSOLUTE_EXPIRY (R171). -/
def execModerationAbsoluteExpiry (kind : Moderated) (s : State) : Host.Outcome State Fault Refusal :=
  event (absoluteFires kind s)

/-! ## Power control's timers (R152, R154, R156) -/

/-- The drain timer expires (R152). -/
def drainExpires (s : State) : State :=
  if s.pow.state = .draining then drainFail s else s.onPow fun p => { p with drain := none }

/-- DRAIN_TIMER_EXPIRY (R152). -/
def execDrainTimerExpiry (s : State) : Host.Outcome State Fault Refusal := event (expire s.pow.drain drainExpires s)

/-- The wake timer expires: a wake source in SLEEP (R154, R156). -/
def wakeTimerNow (s : State) : State :=
  let s1 := s.onPow fun p => { p with wakeTimer := none }
  if s.pow.state = .sleep then wakeSource .timer s1 else s1

/-- WAKE_TIMER_EXPIRY (R154). -/
def execWakeTimerExpiry (s : State) : Host.Outcome State Fault Refusal := event (expire s.pow.wakeTimer wakeTimerNow s)

/-- The resleep timer expires: the credits are withdrawn and SLEEP is entered directly (R156). -/
def resleepNow (s : State) : State :=
  if s.pow.state = .doze ∧ s.drained = true then enterSleep (withdrawCredits s)
  else s.onPow fun p => { p with resleep := none }

/-- RESLEEP_TIMER_EXPIRY (R156). -/
def execResleepTimerExpiry (s : State) : Host.Outcome State Fault Refusal := event (expire s.pow.resleep resleepNow s)

/-- The blocks come up after the exit that a falling RESET began, without wake conversions (R162). -/
def resetBlocks (s : State) : State :=
  lightWake (flashUp { s with conv := { s.conv with powered := true } })

/-- The self-refresh exit ends: the wake is completed, then a waiting reset event is taken (R154, R162). -/
def exitEnds (s : State) : State :=
  let s1 := if s.pow.waking = [] then resetBlocks s else wakeEnd s
  if s.pow.resetWaits then warmEvent s1 else s1.onPow fun p => { p with exit := none }

/-- SELF_REFRESH_EXIT_END (R154). -/
def execSelfRefreshExitEnd (s : State) : Host.Outcome State Fault Refusal := event (expire s.pow.exit exitEnds s)

/-! ## Resets (R159, R162, R164) -/

/-- What losing power does to an operation at the flash: an erase leaves its sector unknown, a program its page
part-way (R147, R133). -/
def powerLost (s : State) : State :=
  match s.store.op with
  | none => s
  | some o => if s.store.flash.atFlash then timeoutContent o s else s

/-- A key's raw level is the contact's own, and survives a reset (R85). -/
def keepLevel (k : KeyScan) : KeyScan := { KeyScan.reset with pressed := k.pressed }

/-- The key scanner after a cold reset at an instant (R85). -/
def coldKeys (now : Nat) (k : Scanner) : Scanner :=
  { fwd := keepLevel k.fwd, back := keepLevel k.back, light := keepLevel k.light, power := keepLevel k.power,
    records := [], lost := false, epoch := now }

/-- A cold reset with the level of SERVICE: every block at its cold-reset values, the part in STARTING and the BATT
conversion of start-up begun (R159). The clock, the queue of commands, the content of the book store, the counter of free
values and the levels of RESET, RADIO_ATTN and the keys are not the reset's. -/
def coldReset (service : Bool) (s : State) : State :=
  let l := powerLost s
  { State.reset with
    now := l.now, pending := l.pending, fresh := l.fresh, content := l.content,
    conv := { Converter.reset with busy := some (.batt, l.now + 200) },
    keys := coldKeys l.now l.keys,
    store := { Store.reset with bootProtected := !service },
    pow := { Power.reset with resetLow := l.pow.resetLow, radioAttn := l.pow.radioAttn } }

/-- COLD_RESET (R159). -/
def execColdReset (service : Bool) (s : State) : Host.Outcome State Fault Refusal := event (coldReset service s)

/-- RESET falls in SLEEP: page memory leaves self-refresh first, or the wake under way ends first (R162). -/
def resetInSleep (s : State) : State :=
  s.onPow fun p =>
    { p with resetLow := true, resetWaits := true, exit := if p.exit.isNone then s.inUs 1000 else p.exit }

/-- RESET falls (R162): ignored in STARTING but for the line, and no fall while it is low. -/
def resetFalls (s : State) : State :=
  if s.pow.resetLow then s
  else match s.pow.state with
    | .starting => s.onPow fun p => { p with resetLow := true }
    | .sleep => resetInSleep s
    | .active | .doze | .draining => warmEvent (s.onPow fun p => { p with resetLow := true })

/-- WARM_RESET (R162). -/
def execWarmReset (s : State) : Host.Outcome State Fault Refusal := event (resetFalls s)

/-- RESET_RISE (R164). -/
def execResetRise (s : State) : Host.Outcome State Fault Refusal := event (s.onPow fun p => { p with resetLow := false })

end Sys2Proof.Machine
end

