-- ==== Sys2Proof/Machine/FetchCommands.lean ====
section
/-! DEFINITION. Machine/FetchCommands.lean: the requests of the FETCH stream (R114 to R118) and the radio port (R121 to
R123). -/

namespace Sys2Proof.Machine

open Sys2Proof

/-- FETCH_OPEN (R114). -/
def execFetchOpen (s : State) : Host.Outcome State Fault Refusal := event (takeRequest .fetchOpen serveFetchOpen s)

/-- FETCH_SUMS (R115). -/
def execFetchSums (s : State) : Host.Outcome State Fault Refusal := event (takeRequest .fetchSums serveFetchSums s)

/-- FETCH_ARM (R116). -/
def execFetchArm (s : State) : Host.Outcome State Fault Refusal := event (takeRequest .fetchArm serveFetchArm s)

/-- FETCH_CLOSE (R117). -/
def execFetchClose (s : State) : Host.Outcome State Fault Refusal := event (takeRequest .fetchClose serveFetchClose s)

/-- FETCH_STATUS (R118). -/
def execFetchStatus (s : State) : Host.Outcome State Fault Refusal := event (takeRequest .fetchStatus serveFetchStatus s)

/-! ## The radio port (R121 to R123, 12.5) -/

/-- One channel of a STATUS read. -/
def State.radioStatus (s : State) (c : Nat) : List Byte :=
  le8 (s.channel c).state.code ++ le8 (s.credits c) ++ le16 (s.channel c).pfx ++ le8 (s.channel c).refetch.length

/-- The bytes of a STATUS read (R121). -/
def State.radioStatusBytes (s : State) : List Byte :=
  let b := [0, 1, 2, 3].flatMap s.radioStatus
  b ++ crc16Bytes b

/-- The port sends bytes, or nothing while it is closed (R121). -/
def radioSend (bytes : List Byte) (s : State) : State := { s with lastRadio := if s.radioOpen then bytes else [] }

/-- STATUS_READ (R121). -/
def execStatusRead (s : State) : Host.Outcome State Fault Refusal := event (radioSend s.radioStatusBytes s)

/-- The bytes of a REFETCH read: an empty list for a channel outside 0-3 (R121). -/
def State.refetchBytes (s : State) (c : Nat) : List Byte :=
  let l := if c < 4 then (s.channel c).refetch else []
  let b := listBytes (l.map le16)
  b ++ crc16Bytes b

/-- REFETCH_READ (R121). -/
def execRefetchRead (channel : Byte) (s : State) : Host.Outcome State Fault Refusal :=
  event (radioSend (s.refetchBytes channel.toNat) s)

/-- A drop count, which stops at 65,535 (R112). -/
def bump (n : Nat) : Nat := min 65535 (n + 1)

/-- What the header checks decide (R122). -/
inductive HeaderResult where
  | discarded
  | noCredit
  | outOfWindow
  | duplicate
  | wrongLength
  | received
  deriving DecidableEq, Repr

/-- Expected length of a chunk of a channel. -/
def Channel.expected (ch : Channel) (i : Nat) : Nat :=
  match ch.manifest with
  | none => 0
  | some m => m.expected i

/-- The header checks in order (R122): channel (1), index (2), length (4), CRC-16 (2). -/
def State.headerCheck (s : State) (h : List Byte) : HeaderResult :=
  let c := byteAt h 0
  let i := nat16At h 1
  if crc16 (h.take 7) ≠ BitVec.ofNat 16 (nat16At h 7) then .discarded
  else if 3 < c ∨ (s.channel c).state ≠ .armed then .discarded
  else if s.credits c = 0 then .noCredit
  else if (s.channel c).inWindow i = false then .outOfWindow
  else match ((s.channel c).chunk i).state with
    | .staged | .writing | .stored => .duplicate
    | .missing | .bad => if nat32At h 3 = (s.channel c).expected i then .received else .wrongLength

/-- A chunk header has been clocked in (R122). -/
def headerNow (h : List Byte) (s : State) : State :=
  let c := byteAt h 0
  let i := nat16At h 1
  match s.headerCheck h with
  | .discarded => s
  | .noCredit => s.onChannel c fun ch => { ch with noCredit := bump ch.noCredit }
  | .outOfWindow => s.onChannel c fun ch => { ch with outOfWindow := bump ch.outOfWindow }
  | .duplicate => s.onChannel c fun ch => { ch with duplicate := bump ch.duplicate }
  | .wrongLength => foundBad c i { s with pool := passSlab (.credit c) .free s.pool }
  | .received =>
    creditPoint { s with pool := passSlab (.credit c) (.chunk c i) s.pool,
                         fetch := { s.fetch with
                           reception := some { channel := c, index := i, length := nat32At h 3 } } }

/-- CHUNK_HEADER: the port is open and no frame is in reception (R121, R122, log 2). -/
def execChunkHeader (bytes : List Byte) (s : State) : Host.Outcome State Fault Refusal :=
  event (if s.radioOpen && s.fetch.reception.isNone then headerNow bytes s else s)

/-- The manifest's sum for an index. -/
def Channel.sumOf (ch : Channel) (i : Nat) : Option Word32 :=
  match ch.manifest with
  | none => none
  | some m => (m.sums.getD i none)

/-- The payload is whole and its CRC-32 is the manifest's (R123). -/
def State.frameGood (s : State) (f : Reception) (payload : List Byte) : Bool :=
  decide (f.length ≤ payload.length) && some (crc32 (payload.take f.length)) == (s.channel f.channel).sumOf f.index

/-- A chunk becomes STAGED with its payload and leaves the refetch list (R123). -/
def stageChunk (f : Reception) (payload : List Byte) (s : State) : State :=
  s.onChannel f.channel fun ch =>
    let staged := Channel.onChunk f.index
      (fun k => { k with state := .staged, payload := payload.take f.length }) ch
    { staged with refetch := ch.refetch.filter fun i => i != f.index }

/-- The frame leaves reception (R123). -/
def endReception (s : State) : State := { s with fetch := { s.fetch with reception := none } }

/-- A chunk frame's transfer ends (R123, R117). -/
def frameEndNow (f : Reception) (payload : List Byte) (s : State) : State :=
  let s1 := endReception s
  if (s.channel f.channel).state = .armed then
    if s.frameGood f payload then schedulePoint (stageChunk f payload s1)
    else foundBad f.channel f.index (freeChunk f.channel f.index s1)
  else closingCheck f.channel s1

/-- CHUNK_FRAME_END (R123). -/
def execChunkFrameEnd (payload : List Byte) (s : State) : Host.Outcome State Fault Refusal :=
  event (match s.fetch.reception with
    | none => s
    | some f => frameEndNow f payload s)

/-- RADIO_ATTN_RISE: the line takes a level; its rise in SLEEP is a wake source (R154, log 17). -/
def execRadioAttnRise (high : Bool) (s : State) : Host.Outcome State Fault Refusal :=
  let s1 := s.onPow fun p => { p with radioAttn := high }
  event (if high && !s.pow.radioAttn && s.pow.state == .sleep then wakeSource .radio s1 else s1)

end Sys2Proof.Machine
end

