-- ==== Sys2Proof/Machine/KeyCommands.lean ====
section
/-! DEFINITION. Machine/KeyCommands.lean: the key scanner's commands (R78 to R84). -/

namespace Sys2Proof.Machine

open Sys2Proof

/-- A key's raw level becomes pressed or released; a change arms the debounce timer, but in STARTING the scanner
samples nothing (R78, log 26). -/
def keyEdgeNow (k : Key) (pressed : Bool) (s : State) : State :=
  if (s.keys.key k).pressed = pressed then s
  else if s.pow.state = .starting then s.onKey k fun ks => { ks with pressed := pressed }
  else s.onKey k fun ks => { ks with pressed := pressed, debounce := s.inMs (s.settingNat .debounceMs) }

/-- KEY_EDGE (R78). -/
def execKeyEdge (key : Key) (pressed : Bool) (s : State) : Host.Outcome State Fault Refusal :=
  event (keyEdgeNow key pressed s)

/-- The wake source of a key (R154). -/
def keySource : Key → WakeSource
  | .fwd => .fwd
  | .back => .back
  | .light => .light
  | .power => .power

/-- A PRESS's local action (R80); in SLEEP the PRESS is a wake source (R79, R154). -/
def pressAction (k : Key) (s : State) : State :=
  if s.pow.state = .sleep then wakeSource (keySource k) s
  else match keyDir k with
    | none => s
    | some d => if s.turnsEnabled then keyTurn k d s else s

/-- A debounced press (R79). -/
def pressNow (k : Key) (s : State) : State :=
  let s1 := s.onKey k fun ks =>
    { ks with down := true, state := .down, long := s.inMs (s.settingNat .longMs), run := none, last := none, mute := false }
  pressAction k (appendKey k .press s1)

/-- A RELEASE's local action, given the key as it was (R82, R83); none in SLEEP (R79). -/
def releaseAction (k : Key) (was : KeyScan) (s : State) : State :=
  if s.pow.state = .sleep then s
  else match keyDir k with
    | some d => if was.settles then settleRun d s else s
    | none =>
      if k = .light ∧ was.state = .down ∧ was.mute = false ∧ s.toggleEnabled = true then toggleLight s else s

/-- A debounced release (R79). -/
def releaseNow (k : Key) (s : State) : State :=
  let s1 := s.onKey k fun ks =>
    { ks with down := false, state := .up, long := none, run := none, last := none, mute := false }
  releaseAction k (s.keys.key k) (appendKey k .release s1)

/-- A debounce timer expires (R78). -/
def debounceNow (k : Key) (s : State) : State :=
  let s1 := s.onKey k fun ks => { ks with debounce := none }
  if (s.keys.key k).pressed = (s.keys.key k).down then s1
  else if (s.keys.key k).pressed then pressNow k s1
  else releaseNow k s1

/-- DEBOUNCE_EXPIRY (R78). -/
def execDebounceExpiry (key : Key) (s : State) : Host.Outcome State Fault Refusal :=
  event (expire (s.keys.key key).debounce (debounceNow key) s)

/-- A LONG's local action: a run begins with its first tick (R80, R81). -/
def longAction (k : Key) (s : State) : State :=
  match keyDir k with
  | none => s
  | some d => if s.pow.state ≠ .sleep ∧ s.turnsEnabled = true then runTickNow k d 0 s else s

/-- A long timer expires (R79). -/
def longNow (k : Key) (s : State) : State :=
  let s1 := s.onKey k fun ks => { ks with long := none }
  if (s.keys.key k).state = .down then
    longAction k (appendKey k .long (s1.onKey k fun ks => { ks with state := .held }))
  else s1

/-- LONG_TIMER_EXPIRY (R79). -/
def execLongTimerExpiry (key : Key) (s : State) : Host.Outcome State Fault Refusal :=
  event (expire (s.keys.key key).long (longNow key) s)

/-- The timer of a key's run. -/
def KeyScan.runTimer (k : KeyScan) : Timer :=
  match k.run with
  | some r => r.timer
  | none => none

/-- The turns a key's run has counted. -/
def KeyScan.runTurns (k : KeyScan) : Nat :=
  match k.run with
  | some r => r.turns
  | none => 0

/-- A tick of a key's run (R81). -/
def tickNow (k : Key) (s : State) : State :=
  match keyDir k with
  | none => s
  | some d => runTickNow k d (s.keys.key k).runTurns s

/-- RUN_TICK (R81). -/
def execRunTick (key : Key) (s : State) : Host.Outcome State Fault Refusal :=
  event (expire (s.keys.key key).runTimer (tickNow key) s)

end Sys2Proof.Machine
end

