-- ==== Sys2Proof/Machine/Light.lean ====
section
/-! DEFINITION. Machine/Light.lean: the requests of the LIGHT stream, the light's timers and its PWM periods (R87 to
R97). -/

namespace Sys2Proof.Machine

open Sys2Proof

/-- LIGHT (R87). -/
def execLight (s : State) : Host.Outcome State Fault Refusal := event (takeRequest .light serveLight s)

/-- FOLLOW (R93). -/
def execFollow (s : State) : Host.Outcome State Fault Refusal := event (takeRequest .follow serveFollow s)

/-- RAMP_STEP: the ramp timer expires (R88). -/
def execRampStep (s : State) : Host.Outcome State Fault Refusal := event (expire s.light.ramp rampStepNow s)

/-- The follow step timer expires (R94): in STARTING it is armed again without a step, in DRAINING and SLEEP it
stops until the return or the wake (R97). -/
def followStepNow (s : State) : State :=
  match s.pow.state with
  | .active | .doze => convRequest .amb (s.onLight fun l => { l with step := s.inMs 500 })
  | .starting => s.onLight fun l => { l with step := s.inMs 500 }
  | .draining | .sleep => s.onLight fun l => { l with step := none }

/-- FOLLOW_STEP (R94). -/
def execFollowStep (s : State) : Host.Outcome State Fault Refusal := event (expire s.light.step followStepNow s)

/-- The settle timer expires (R95). -/
def followSettleNow (s : State) : State :=
  targetsChanged (s.onLight fun l => { l with levelTarget := l.latest, settle := none })

/-- FOLLOW_SETTLE_EXPIRY (R95). -/
def execFollowSettleExpiry (s : State) : Host.Outcome State Fault Refusal :=
  event (expire s.light.settle followSettleNow s)

/-- A channel's period starts: the duty and the divider take their present values, unless the outputs are held off
(R90). -/
def periodStart (ch : LightChannel) (s : State) : State :=
  if s.light.pwmOn then
    match ch with
    | .warm => s.onLight fun l => { l with warmDuty := s.warmDutyNow, warmDiv := s.settingNat .pwmDiv }
    | .cool => s.onLight fun l => { l with coolDuty := s.coolDutyNow, coolDiv := s.settingNat .pwmDiv }
  else s

/-- PWM_PERIOD_START (R90). -/
def execPwmPeriodStart (ch : LightChannel) (s : State) : Host.Outcome State Fault Refusal := event (periodStart ch s)

end Sys2Proof.Machine
end

