-- ==== Sys2Proof/Machine/StoreCommands.lean ====
section
/-! DEFINITION. Machine/StoreCommands.lean: the requests of the STORE stream and the flash's reports and time limits
(R135, R141 to R145). -/

namespace Sys2Proof.Machine

open Sys2Proof

/-- STORE_READ (R135). -/
def execStoreRead (s : State) : Host.Outcome State Fault Refusal := event (takeRequest .storeRead serveStoreRead s)

/-- STORE_PROGRAM (R135). -/
def execStoreProgram (s : State) : Host.Outcome State Fault Refusal :=
  event (takeRequest .storeProgram serveStoreProgram s)

/-- STORE_ERASE (R135). -/
def execStoreErase (s : State) : Host.Outcome State Fault Refusal := event (takeRequest .storeErase serveStoreErase s)

/-! ## Reports of the flash (R141, R143, R144) -/

/-- The bytes that a READ takes from the flash (R133). -/
def State.readBytes (s : State) (a n : Nat) : List Byte := memReadN s.content a n

/-- A READ at the flash ends OK: the host's, or one of power control's boot reads (R141, R160). -/
def readEnds (o : Op) (a n : Nat) (s : State) : State :=
  if o.source = .boot then bootReadDone (s.readBytes a n) (clearOp .idle s)
  else endOp o .ok (s.readBytes a n) s

/-- The READ of the batch at the flash ends OK (R143). -/
def batchReadEnds (o : Op) (a n : Nat) (s : State) : State :=
  resumeIfDone (deliver o .ok (s.readBytes a n) (s.onStore fun st => { st with batch := st.batch.tail, since := s.now }))

/-- The flash reports a read done (R141, R143). -/
def flashReadNow (s : State) : State :=
  match s.store.flash, s.store.op, s.store.batch with
  | .running, some ⟨src, .read a n, arr⟩, _ => readEnds ⟨src, .read a n, arr⟩ a n s
  | .suspended, _, ⟨src, .read a n, arr⟩ :: _ => batchReadEnds ⟨src, .read a n, arr⟩ a n s
  | _, _, _ => s

/-- FLASH_READ_DONE (R141). -/
def execFlashReadDone (s : State) : Host.Outcome State Fault Refusal := event (flashReadNow s)

/-- A page of a PROGRAM is done: the next page begins, or the operation ends OK (R141, R137). -/
def pageEnds (o : Op) (a : Nat) (d : List Byte) (s : State) : State :=
  let s1 := programPage a s.store.page d s
  if lastPage s.store.page d || s.store.cut then endOp o .ok [] s1
  else s1.onStore fun st => { st with page := st.page + 1, ran := 0, since := s.now }

/-- The flash reports a page done (R141). -/
def flashPageNow (s : State) : State :=
  match s.store.flash, s.store.op with
  | .running, some ⟨src, .program a d, arr⟩ => pageEnds ⟨src, .program a d, arr⟩ a d s
  | _, _ => s

/-- FLASH_PAGE_DONE (R141). -/
def execFlashPageDone (s : State) : Host.Outcome State Fault Refusal := event (flashPageNow s)

/-- A sector takes the erased byte (R133). -/
def eraseSector (sec : Nat) (s : State) : State :=
  { s with content := memErase s.content (sec * Config.sectorBytes) Config.sectorBytes }

/-- The flash works on an erase: RUNNING, or SUSPENDING before it answers (R141, R143). -/
def FlashState.erasing : FlashState → Bool
  | .running | .suspending => true
  | _ => false

/-- The flash reports an erase done (R141, R143). -/
def flashEraseNow (s : State) : State :=
  match s.store.op with
  | some ⟨src, .erase sec, arr⟩ =>
    if s.store.flash.erasing then endOp ⟨src, .erase sec, arr⟩ .ok [] (eraseSector sec s) else s
  | _ => s

/-- FLASH_ERASE_DONE (R141). -/
def execFlashEraseDone (s : State) : Host.Outcome State Fault Refusal := event (flashEraseNow s)

/-- The flash reports a program or erase failure (R141, R143). -/
def flashFailureNow (s : State) : State :=
  match s.store.op with
  | none => s
  | some o => if o.isRead = false ∧ s.store.flash.erasing = true then endOp o .fault [] (faultContent o s) else s

/-- FLASH_FAILURE (R141). -/
def execFlashFailure (s : State) : Host.Outcome State Fault Refusal := event (flashFailureNow s)

/-- The flash reports the erase suspended (R143). -/
def flashSuspendedNow (s : State) : State :=
  if s.store.flash = .suspending then resumeIfDone (suspendNow s) else s

/-- FLASH_SUSPENDED (R143). -/
def execFlashSuspended (s : State) : Host.Outcome State Fault Refusal := event (flashSuspendedNow s)

/-- 100 µs pass after the suspend command without a report (R143). -/
def noAnswerNow (s : State) : State :=
  match s.store.flash, s.store.op with
  | .suspending, some o =>
    let s1 := s.upTo (s.store.commanded + 100)
    endTimeout o (timeoutContent o s1)
  | _, _ => s

/-- SUSPEND_NO_ANSWER (R143). -/
def execSuspendNoAnswer (s : State) : Host.Outcome State Fault Refusal := event (noAnswerNow s)

/-- The erase reaches its min-run point (R142). No mark of a point passed is kept, so each MIN_RUN_POINT makes the test by
the setting in force then (the model's choice, log 52). -/
def minRunNow (s : State) : State :=
  match s.store.flash, s.store.op with
  | .running, some ⟨_, .erase _, _⟩ => suspendTest (s.upTo (s.store.since + s.settingNat .eraseMinRunUs))
  | _, _ => s

/-- MIN_RUN_POINT (R142). -/
def execMinRunPoint (s : State) : Host.Outcome State Fault Refusal := event (minRunNow s)

/-- The limit of running time in µs (R141). -/
def OpKind.limitUs : OpKind → Nat
  | .read _ _ => 1000
  | .program _ _ => 5000
  | .erase _ => 60000

/-- The instant at which the operation at the flash has used up its running time (R141). -/
def State.overrunAt (s : State) (k : OpKind) : Nat := s.store.since + (k.limitUs - s.store.ran)

/-- An operation overruns (R144). A boot read that does decides DEFAULTS, and start-up ends with the flash's reset
(R161, log 23). -/
def overrunOp (o : Op) (s : State) : State :=
  let s1 := s.upTo (s.overrunAt o.kind)
  if o.source = .boot then onBoot (fun b => { b with failing := true }) (endTimeout o s1)
  else endTimeout o (timeoutContent o s1)

/-- The operation at the flash overruns its running time (R141, R144). -/
def overrunNow (s : State) : State :=
  match s.store.flash, s.store.op, s.store.batch with
  | .running, some o, _ => overrunOp o s
  | .suspending, some o, _ => overrunOp o s
  | .suspended, some er, rd :: _ => batchOverrun rd er (s.upTo (s.store.since + 1000))
  | _, _, _ => s

/-- RUNNING_TIME_OVERRUN (R144). -/
def execRunningTimeOverrun (s : State) : Host.Outcome State Fault Refusal := event (overrunNow s)

/-- A boot read has overrun, and start-up ends with the flash's reset (R161). -/
def State.bootFailing (s : State) : Bool :=
  match s.pow.boot with
  | some b => b.failing
  | none => false

/-- The end of start-up after a boot read that overran, once the flash's reset is over (R161, log 23). -/
def bootReset (s : State) : State := if s.bootFailing then bootFails s else s

/-- The flash reports its reset done (R144, R147, R161). -/
def flashResetNow (s : State) : State :=
  if s.store.flash = .resetting then
    match s.store.op with
    | some o => afterOutcome o (resetOver .idle s)
    | none => bootReset (selectPoint (resetOver .idle s))
  else s

/-- FLASH_RESET_DONE (R144). -/
def execFlashResetDone (s : State) : Host.Outcome State Fault Refusal := event (flashResetNow s)

/-- 1 ms passes after the reset command without a report (R144, R145). A part in start-up starts with the store OFFLINE
(R161). -/
def resetTimeoutNow (s : State) : State :=
  if s.store.flash = .resetting then bootReset (goOffline (s.upTo (s.store.commanded + 1000))) else s

/-- FLASH_RESET_TIMEOUT (R144). -/
def execFlashResetTimeout (s : State) : Host.Outcome State Fault Refusal := event (resetTimeoutNow s)

end Sys2Proof.Machine
end

