-- ==== Sys2Proof/Machine/Transfers.lean ====
section
/-! DEFINITION. Machine/Transfers.lean: the transfers of the page link (R163 to R170). -/

namespace Sys2Proof.Machine

open Sys2Proof

/-- The link takes transfers: not in STARTING, nor while RESET is low (R163). -/
def State.linkOpen (s : State) : Bool := s.pow.state != .starting && !s.pow.resetLow

/-- What the framing checks decide (R165). -/
inductive WriteResult where
  | framing
  | crc
  | notReady
  | hostPacket
  deriving DecidableEq, Repr

/-- The checks of R165 in order, on the bytes clocked after the first. The transfer of a wake is judged as one made while
READY is low (R154). -/
def State.writeCheck (s : State) (b : List Byte) : WriteResult :=
  let n := nat16At b 2
  if b.length < 4 ∨ 4160 < n ∨ b.length < n + 6 then .framing
  else if crc16 (b.take (n + 4)) ≠ BitVec.ofNat 16 (nat16At b (n + 4)) then .crc
  else if s.ready && !s.link.wakeTransfer then .hostPacket
  else .notReady

/-- The transfer under way ends. -/
def transferEnds (s : State) : State := { s with link := { s.link with wakeTransfer := false } }

/-- One more request is open (R164, R166). -/
def openRequest (s : State) : State := { s with link := { s.link with opened := s.link.opened + 1 } }

/-- A response to a packet that is refused at its acceptance (R166, R168). -/
def refusePacket (b : List Byte) (code : Code) (s : State) : State :=
  s.addOut (.response { kindByte := b.getD 0 0, tag := b.getD 1 0, code := code, body := [] })

/-- A host packet is accepted: refused at once, or sorted into its stream (R166). A free owner takes it at the end of the
event (R167, `finish`). -/
def acceptPacket (b : List Byte) (s : State) : State :=
  let n := nat16At b 2
  let s1 := openRequest s
  match reqKindOf (byteAt b 0) with
  | none => refusePacket b .unknown s1
  | some k =>
    if k.lengthOk n then
      { s1 with link := { s1.link with
        inbound := s1.link.inbound ++ [{ kind := k, tag := b.getD 1 0, body := (b.drop 4).take n }] } }
    else refusePacket b .length s1

/-- A write transfer ends (R163, R165). -/
def writeNow (b : List Byte) (s : State) : State :=
  if s.linkOpen then
    match s.writeCheck b with
    | .framing => recordLink 1 (transferEnds s)
    | .crc => recordLink 0 (transferEnds s)
    | .notReady => recordLink 2 (transferEnds s)
    | .hostPacket => acceptPacket b (hostArrives s)
  else s

/-- WRITE_TRANSFER (R165). -/
def execWriteTransfer (bytes : List Byte) (s : State) : Host.Outcome State Fault Refusal := event (writeNow bytes s)

/-- The link serves reads: ACTIVE, DOZE and DRAINING, whatever READY says, with RESET high (R163), but for the transfer
of a wake (R150, R154). -/
def State.servesReads (s : State) : Bool := s.pow.state.awake && !s.pow.resetLow && !s.link.wakeTransfer

/-- The part clocks out bytes. -/
def clockOut (bytes : List Byte) (rd : Reading) (s : State) : State :=
  { s with lastLink := bytes, link := { s.link with reading := rd } }

/-- The first byte of a read has been clocked (R169); an unserved read clocks out 0x00 (R163, log 24). -/
def readNow (s : State) : State :=
  if s.servesReads then
    match s.link.out with
    | [] => clockOut emptyPacket .empty s
    | .response r :: _ => clockOut r.packet .head s
    | .waiting k :: rest => clockOut (s.noticePacket k) .head (buildNotice k rest s)
    | .built _ p :: _ => clockOut p .head s
  else clockOut [0] .nothing (transferEnds s)

/-- READ_TRANSFER (R169). -/
def execReadTransfer (s : State) : Host.Outcome State Fault Refusal := event (readNow s)

/-- The head leaves the outbound queue; a response frees its slot (R164, R169). -/
def packetLeaves (s : State) : State :=
  match s.link.out with
  | [] => s
  | i :: rest =>
    { s with link := { s.link with out := rest, reading := .nothing,
                                   opened := if i.isResponse then s.link.opened - 1 else s.link.opened } }

/-- The last CRC byte of a read has been clocked out (R169). That a read which SLEEP finds under way goes on is the model's
choice (log 60). -/
def packetLeftNow (s : State) : State :=
  match s.link.reading with
  | .nothing => s
  | .empty => { s with link := { s.link with reading := .nothing } }
  | .head => packetLeaves s

/-- PACKET_LEFT (R169). -/
def execPacketLeft (s : State) : Host.Outcome State Fault Refusal := event (packetLeftNow s)

/-- UNKNOWN_TRANSFER (R163). -/
def execUnknownTransfer (s : State) : Host.Outcome State Fault Refusal :=
  event (if s.linkOpen then recordLink 1 (transferEnds s) else s)

/-- A transfer begins: it is the transfer of a wake if its chip-select began or joined one (R154, log 37). -/
def transferBegins (s : State) : State :=
  { s with link := { s.link with wakeTransfer := s.pow.state == .sleep && s.pow.waking.contains .host } }

/-- CHIP_SELECT_FALL: a wake source in SLEEP (R154). -/
def execChipSelectFall (s : State) : Host.Outcome State Fault Refusal :=
  event (transferBegins (if s.pow.state = .sleep then wakeSource .host s else s))

end Sys2Proof.Machine
end

