-- ==== Sys2Proof/Machine/Waveforms.lean ====
section
/-! DEFINITION. Machine/Waveforms.lean: the waveform requests of the DISPLAY stream (R20 to R26). -/

namespace Sys2Proof.Machine

open Sys2Proof

/-- WAVE_BEGIN (R20). -/
def execWaveBegin (s : State) : Host.Outcome State Fault Refusal := event (takeRequest .waveBegin serveWaveBegin s)

/-- WAVE_DATA (R21). -/
def execWaveData (s : State) : Host.Outcome State Fault Refusal := event (takeRequest .waveData serveWaveData s)

/-- WAVE_END (R22). -/
def execWaveEnd (s : State) : Host.Outcome State Fault Refusal := event (takeRequest .waveEnd serveWaveEnd s)

/-- WAVE_DROP (R24). -/
def execWaveDrop (s : State) : Host.Outcome State Fault Refusal := event (takeRequest .waveDrop serveWaveDrop s)

/-- BANDS (R26). -/
def execBands (s : State) : Host.Outcome State Fault Refusal := event (takeRequest .bands serveBands s)

end Sys2Proof.Machine
end

