-- ==== Sys2Proof/Machine/Dispatch.lean ====
section
/-! DEFINITION. Machine/Dispatch.lean: one arm for each command, in the opcode table's order. -/

namespace Sys2Proof.Machine

open Sys2Proof

/-- The effect of a command on everything but the queue of waiting commands. -/
def exec (i : Instr) (s : State) : Host.Outcome State Fault Refusal :=
  match i with
  | .coldReset service => Sys2Proof.Machine.execColdReset service s
  | .warmReset => Sys2Proof.Machine.execWarmReset s
  | .resetRise => Sys2Proof.Machine.execResetRise s
  | .writeTransfer bytes => Sys2Proof.Machine.execWriteTransfer bytes s
  | .readTransfer => Sys2Proof.Machine.execReadTransfer s
  | .packetLeft => Sys2Proof.Machine.execPacketLeft s
  | .unknownTransfer => Sys2Proof.Machine.execUnknownTransfer s
  | .chipSelectFall => Sys2Proof.Machine.execChipSelectFall s
  | .pixels => Sys2Proof.Machine.execPixels s
  | .toneMap => Sys2Proof.Machine.execToneMap s
  | .update => Sys2Proof.Machine.execUpdate s
  | .abort => Sys2Proof.Machine.execAbort s
  | .pageTag => Sys2Proof.Machine.execPageTag s
  | .cacheOpen => Sys2Proof.Machine.execCacheOpen s
  | .cacheReady => Sys2Proof.Machine.execCacheReady s
  | .cacheDrop => Sys2Proof.Machine.execCacheDrop s
  | .turn => Sys2Proof.Machine.execTurn s
  | .waveBegin => Sys2Proof.Machine.execWaveBegin s
  | .waveData => Sys2Proof.Machine.execWaveData s
  | .waveEnd => Sys2Proof.Machine.execWaveEnd s
  | .waveDrop => Sys2Proof.Machine.execWaveDrop s
  | .bands => Sys2Proof.Machine.execBands s
  | .light => Sys2Proof.Machine.execLight s
  | .follow => Sys2Proof.Machine.execFollow s
  | .fetchOpen => Sys2Proof.Machine.execFetchOpen s
  | .fetchSums => Sys2Proof.Machine.execFetchSums s
  | .fetchArm => Sys2Proof.Machine.execFetchArm s
  | .fetchClose => Sys2Proof.Machine.execFetchClose s
  | .fetchStatus => Sys2Proof.Machine.execFetchStatus s
  | .storeRead => Sys2Proof.Machine.execStoreRead s
  | .storeProgram => Sys2Proof.Machine.execStoreProgram s
  | .storeErase => Sys2Proof.Machine.execStoreErase s
  | .set => Sys2Proof.Machine.execSet s
  | .get => Sys2Proof.Machine.execGet s
  | .status => Sys2Proof.Machine.execStatus s
  | .limits => Sys2Proof.Machine.execLimits s
  | .doze => Sys2Proof.Machine.execDoze s
  | .sleep => Sys2Proof.Machine.execSleep s
  | .wake => Sys2Proof.Machine.execWake s
  | .statusRead => Sys2Proof.Machine.execStatusRead s
  | .refetchRead channel => Sys2Proof.Machine.execRefetchRead channel s
  | .chunkHeader bytes => Sys2Proof.Machine.execChunkHeader bytes s
  | .chunkFrameEnd payload => Sys2Proof.Machine.execChunkFrameEnd payload s
  | .radioAttnRise high => Sys2Proof.Machine.execRadioAttnRise high s
  | .keyEdge key pressed => Sys2Proof.Machine.execKeyEdge key pressed s
  | .debounceExpiry key => Sys2Proof.Machine.execDebounceExpiry key s
  | .longTimerExpiry key => Sys2Proof.Machine.execLongTimerExpiry key s
  | .runTick key => Sys2Proof.Machine.execRunTick key s
  | .frameBoundary => Sys2Proof.Machine.execFrameBoundary s
  | .conversionEnd raw => Sys2Proof.Machine.execConversionEnd raw s
  | .tempIntervalExpiry => Sys2Proof.Machine.execTempIntervalExpiry s
  | .sampleTimerExpiry => Sys2Proof.Machine.execSampleTimerExpiry s
  | .rampStep => Sys2Proof.Machine.execRampStep s
  | .followStep => Sys2Proof.Machine.execFollowStep s
  | .followSettleExpiry => Sys2Proof.Machine.execFollowSettleExpiry s
  | .moderationSettleExpiry kind => Sys2Proof.Machine.execModerationSettleExpiry kind s
  | .moderationAbsoluteExpiry kind => Sys2Proof.Machine.execModerationAbsoluteExpiry kind s
  | .drainTimerExpiry => Sys2Proof.Machine.execDrainTimerExpiry s
  | .wakeTimerExpiry => Sys2Proof.Machine.execWakeTimerExpiry s
  | .resleepTimerExpiry => Sys2Proof.Machine.execResleepTimerExpiry s
  | .selfRefreshExitEnd => Sys2Proof.Machine.execSelfRefreshExitEnd s
  | .flashReadDone => Sys2Proof.Machine.execFlashReadDone s
  | .flashPageDone => Sys2Proof.Machine.execFlashPageDone s
  | .flashEraseDone => Sys2Proof.Machine.execFlashEraseDone s
  | .flashFailure => Sys2Proof.Machine.execFlashFailure s
  | .flashSuspended => Sys2Proof.Machine.execFlashSuspended s
  | .suspendNoAnswer => Sys2Proof.Machine.execSuspendNoAnswer s
  | .minRunPoint => Sys2Proof.Machine.execMinRunPoint s
  | .runningTimeOverrun => Sys2Proof.Machine.execRunningTimeOverrun s
  | .flashResetDone => Sys2Proof.Machine.execFlashResetDone s
  | .flashResetTimeout => Sys2Proof.Machine.execFlashResetTimeout s
  | .pwmPeriodStart channel => Sys2Proof.Machine.execPwmPeriodStart channel s

end Sys2Proof.Machine
end

