-- ==== Sys2Proof/Safety.lean ====
section
/-! DEFINITION. Safety.lean: what a sound state of the part is, in the terms the statements use. No command faults, so
a safe run is a run through sound states. -/

namespace Sys2Proof.Machine

/-- The fixed collections have the sizes that the spec gives them: 38 settings (R173), 7,500 tiles (spec/01), 16 lanes
(R34), 240 pool slabs (R56), 4 fetch channels (R112) and 9 notice kinds (R170). The content of the book store is in its
canonical form (log 5). -/
def State.shaped (s : State) : Bool :=
  s.settings.length == 38 && s.img.tiles.length == 7500 && s.eng.lanes.length == 16 && s.pool.length == 240
    && s.fetch.channels.length == 4 && s.link.merged.length == 9 && memWf s.content

/-- The light's state is the one judged from its record (R86), and its grant is not above its claim (R107). -/
def State.lightSound (s : State) : Prop := s.light.state = s.light.judged ∧ s.light.grant ≤ s.light.claim

/-- The counts of R34, with the queue's entries told apart by their numbers. -/
def State.counted (s : State) : Prop :=
  s.eng.queue.length ≤ 32 ∧ s.eng.queue.length + s.lanesOccupied + s.eng.completions.length ≤ 48
    ∧ (s.eng.queue.map QEntry.num).Nodup ∧ ∀ e ∈ s.eng.queue, e.num < s.eng.nextNum

/-- A sound state. -/
def State.sound (s : State) : Prop := s.shaped = true ∧ s.lightSound ∧ s.counted

end Sys2Proof.Machine
end

