-- ==== Sys2Proof/Certificates/Slice0/Obligations.lean ====
section
/-! DEFINITION. Certificates/Slice0/Obligations.lean: the statements about the model, from the spec's numbered rules. A
statement of the form `exec c s = .next (finish t)` says what the command does, where it completes, and that nothing but
what `t` changes is changed; `FinishTakesThenJudges` says what `finish` does. -/

namespace Sys2Proof.Claims

open Sys2Proof Sys2Proof.Machine

/-- The command's next state. -/
def runs (c : Instr) (s t : State) : Prop := exec c s = .next (finish t)

/-- A request has left the inbound list (R167), and one of the DISPLAY stream has taken its place (R35). -/
def took (st : Stream) (s : State) : State :=
  { s with link := { s.link with inbound := s.link.inbound.eraseP fun r => r.kind.stream == st },
           displayPlace := if st = .display then s.displayPlace + 1 else s.displayPlace }

/-- A response has joined the tail of the outbound queue (R168). -/
def replied (k : ReqKind) (r : Request) (c : Code) (body : List Byte) (s : State) : State :=
  { s with link := { s.link with
    out := s.link.out ++ [.response { kindByte := byteOf k.code, tag := r.tag, code := c, body := body }] } }

/-- The request has been taken and refused, and nothing else has changed. -/
def refusedWith (k : ReqKind) (r : Request) (c : Code) (s : State) : State := replied k r c [] (took k.stream s)

/-- The frame of the engine's tables: every record but the named parts of a state is as before. -/
def sameBut (s t : State) : Prop :=
  t.settings = s.settings ∧ t.img = s.img ∧ t.cache = s.cache ∧ t.keys = s.keys ∧ t.fetch = s.fetch
    ∧ t.content = s.content ∧ t.pow = s.pow ∧ t.now = s.now ∧ t.pending = s.pending

/-- An entry is eligible, given the entries ahead of it: the six conditions of R36. -/
def mayPick (s : State) (ahead : List QEntry) (e : QEntry) : Prop :=
  (∃ l ∈ s.eng.lanes, l = none) ∧
  (∀ k t, s.img.tiles[k]? = some t → e.tiles.holds k = true → t.owner = none) ∧
  (∀ a ∈ ahead, a.tiles.meets e.tiles = false) ∧
  (∀ p ∈ s.img.held, p.place < e.place → p.tiles.meets e.tiles = false) ∧
  (s.fresh? = true ∧ s.wav.outOfRange = false) ∧
  ∀ a ∈ s.eng.queue, a.pick = none

/-- The outcome of an operation goes to its source: the host's response, or the fetch engine, which then chooses again; the
store selects (R126, R135, R137, R139). An operation without a source has no outcome to give (R147). -/
def reported (o : OpSource) (e : OpEnd) (bytes : List Byte) (s : State) : State :=
  match o with
  | .host r => selectPoint (respond r e.code bytes s)
  | .fetch => schedulePoint (fetchOutcome e s)
  | .boot | .nobody => selectPoint s

/-- The channel is ARMED and the chunk is STAGED in a sector below its erase cursor (R126 step 1). -/
def programReady (s : State) (c i : Nat) : Prop :=
  (s.channel c).state = .armed ∧ ((s.channel c).chunk i).state = .staged ∧
    ∃ m, (s.channel c).manifest = some m ∧ i < m.count ∧ m.sector i < (s.channel c).cursor

/-- The channel is ARMED and qualifies for an erase (R126 step 2). -/
def eraseReady (s : State) (c : Nat) : Prop :=
  (s.channel c).state = .armed ∧ ∃ m, (s.channel c).manifest = some m ∧ (s.channel c).cursor ≤ m.last ∧
    (s.pow.state = .draining → ∃ i < m.count, ((s.channel c).chunk i).state = .staged ∧ (s.channel c).cursor ≤ m.sector i)

/-- The command of a request kind: the opcode table's row of its name. -/
def commandOf : ReqKind → Instr
  | .pixels => .pixels | .toneMap => .toneMap | .update => .update | .abort => .abort | .pageTag => .pageTag
  | .cacheOpen => .cacheOpen | .cacheReady => .cacheReady | .cacheDrop => .cacheDrop | .turn => .turn
  | .waveBegin => .waveBegin | .waveData => .waveData | .waveEnd => .waveEnd | .waveDrop => .waveDrop
  | .bands => .bands | .light => .light | .follow => .follow | .fetchOpen => .fetchOpen | .fetchSums => .fetchSums
  | .fetchArm => .fetchArm | .fetchClose => .fetchClose | .fetchStatus => .fetchStatus | .storeRead => .storeRead
  | .storeProgram => .storeProgram | .storeErase => .storeErase | .set => .set | .get => .get | .status => .status
  | .limits => .limits | .doze => .doze | .sleep => .sleep | .wake => .wake

/-- A run's tick at a key that has counted `n` turns (R81): skipped while the last update lives, ended with turns disabled, and
else a turn attempt with source RUN, which a miss ends the run with and a turn is counted by. -/
def ticked (k : Key) (d : Dir) (n : Nat) (u : State) : State :=
  let ks := u.keys.key k
  let next : Timer := some (u.now + 1000 * u.settingNat .runMs)
  if u.lastLives k = true then { u with keys := u.keys.setKey k { ks with run := some { timer := next, turns := n } } }
  else if u.turnsEnabled = false then { u with keys := u.keys.setKey k { ks with run := some { timer := none, turns := n } } }
  else { turnAttempt d .run (u.displayPlace + 1) u with keys := u.keys.setKey k (if u.turnMiss d = none then
    { ks with run := some { timer := next, turns := n + 1 }, last := some u.eng.nextNum } else { ks with run := none }) }

end Sys2Proof.Claims

open Sys2Proof Sys2Proof.Machine Sys2Proof.Claims

/-! ## The machine -/

/-- A step runs the command at the front of the queue on the state with the rest of the queue. -/
def Obligations.StepRunsFrontCommand : Prop :=
  ∀ (c : Instr) (rest : List Instr) (s : State), s.pending = c :: rest →
    step s = exec c { s with pending := rest }

/-- On an empty queue one microsecond passes and nothing else happens (the model's choice, log 3). -/
def Obligations.IdleStepWaits : Prop :=
  ∀ s : State, s.pending = [] → step s = .next { s with now := s.now + 1 }

/-- How every command ends. The first waiting request whose owner is free is taken in the event: the end of the event is
then what that request's own command makes of the state (R167; that this comes after the event's other effects, and the order
among streams, are the model's choice, log 1). With no such request, power control judges the drain and resleep conditions:
nothing in ACTIVE, STARTING and SLEEP; in DRAINING with all eight conditions SLEEP is entered; in DOZE with resleep pending the
resleep timer is armed while all eight hold and stopped while one does not (R151, R156). -/
def Obligations.FinishTakesThenJudges : Prop :=
  ∀ s : State,
    (∀ (older newer : List Request) (r : Request), s.link.inbound = older ++ r :: newer →
      s.ownerFree r.kind.stream = true → (∀ q ∈ older, s.ownerFree q.kind.stream = false) →
      exec (commandOf r.kind) s = .next (finish s)) ∧
    ((∀ q ∈ s.link.inbound, s.ownerFree q.kind.stream = false) →
      ((s.pow.state = .active ∨ s.pow.state = .starting ∨ s.pow.state = .sleep) → finish s = s) ∧
      (s.pow.state = .draining → s.drained = false → finish s = s) ∧
      (s.pow.state = .draining → s.drained = true → finish s = enterSleep s ∧ (finish s).pow.state = .sleep) ∧
      (s.pow.state = .doze → s.pow.resleepPending = false → finish s = s) ∧
      (s.pow.state = .doze → s.pow.resleepPending = true → s.drained = true → s.pow.resleep = none →
        finish s = { s with pow := { s.pow with resleep := some (s.now + 1000 * s.settingNat .resleepMs) } }) ∧
      (s.pow.state = .doze → s.pow.resleepPending = true → s.drained = true → s.pow.resleep ≠ none → finish s = s) ∧
      (s.pow.state = .doze → s.pow.resleepPending = true → s.drained = false →
        finish s = { s with pow := { s.pow with resleep := none } }))

/-- Every command completes: no command faults and none is refused by the model. -/
def Obligations.EveryCommandCompletes : Prop := ∀ (c : Instr) (s : State), ∃ t : State, exec c s = .next t

/-- The reset state is sound. -/
def Obligations.ResetIsSound : Prop := State.reset.sound

/-- Every step keeps the sizes of the fixed collections and the canonical form of the book store's content. -/
def Obligations.StepKeepsShape : Prop :=
  ∀ s t : State, s.shaped = true → step s = .next t → t.shaped = true

/-- Every step keeps the light's state the one judged from its record, and its grant at most its claim (R86, R107). -/
def Obligations.StepKeepsLightSound : Prop :=
  ∀ s t : State, s.lightSound → step s = .next t → t.lightSound

/-- Every step keeps queued entries plus occupied lanes plus completion records at most 48, and queued entries at most
32 (R34). -/
def Obligations.StepKeepsCounts : Prop :=
  ∀ s t : State, s.counted → step s = .next t → t.counted

/-- What a cold reset leaves (R159): every block at its cold-reset values, the part in STARTING, the BATT conversion of
start-up begun, SERVICE sampled. Kept are the model's clock, queue and counter of free values, the content of the book
store, and the levels of RESET, RADIO_ATTN and the keys, which are the surroundings'; of the content, a power loss with an
operation at the flash leaves what a TIMEOUT leaves (R133, R147, log 18). The values the spec leaves open, the cleared mark of a
wake's transfer (log 37), the cleared erase retries (log 45), and what is kept, are the model's choice (logs 4, 5, 9, 18, 26). -/
def Obligations.ColdResetLeaves : Prop :=
  ∀ (service : Bool) (s lost : State),
    (s.store.flash.atFlash = false ∨ s.store.op = none → lost = s) →
    (s.store.flash.atFlash = true → ∀ o, s.store.op = some o → lost = timeoutContent o s) →
    ∃ t : State, exec (.coldReset service) s = .next t ∧
      t.pow = { Power.reset with resetLow := s.pow.resetLow, radioAttn := s.pow.radioAttn } ∧
      t.settings = defaultSettings ∧ t.img = ImageStore.reset ∧ t.wav = WaveStore.reset ∧ t.eng = Engine.reset ∧
      t.pool = poolReset ∧ t.cache = PageCache.reset ∧ t.light = FrontLight.reset ∧ t.sup = Supply.reset ∧
      t.fetch = Fetch.reset ∧ t.link = Link.reset ∧
      t.conv = { temp := false, batt := false, amb := false, busy := some (.batt, s.now + 200), last := .amb,
                 powered := true } ∧
      t.store = { Store.reset with bootProtected := !service } ∧
      (∀ k : Key, t.keys.key k = { KeyScan.reset with pressed := (s.keys.key k).pressed }) ∧
      t.keys.records = [] ∧ t.keys.lost = false ∧ t.keyClock = 0 ∧
      t.content = lost.content ∧ t.fresh = lost.fresh ∧ t.pending = s.pending ∧ t.now = s.now ∧
      t.ready = false ∧ t.attn = false

/-! ## Taking requests (R166, R167) -/

/-- The oldest request of a stream is the one taken: no older request of its stream stands before it, its owner is
free, and a command of another kind takes nothing.
A request command serves the request that its owner takes, once it has left the inbound list (R167); without one it
changes nothing (the model's choice, log 2).
After every command, whatever the state before it, no request waits that its owner is free to take (R167): one that still
waits in an awake part is of the DISPLAY stream while a packet stalls (R14), or of the STORE stream while the store holds 4 host
operations (R136). -/
def Obligations.RequestTakenOldestFirst : Prop :=
  (∀ (s : State) (k : ReqKind) (r : Request), s.taken k = some r →
     r.kind = k ∧ s.ownerFree k.stream = true ∧
     ∃ older newer : List Request, s.link.inbound = older ++ r :: newer ∧
       (∀ q ∈ older, q.kind.stream ≠ k.stream) ∧ (took k.stream s).link.inbound = older ++ newer ∧
       ∀ j : ReqKind, j.stream = k.stream → j ≠ k → s.taken j = none) ∧
  (∀ (s : State) (k : ReqKind),
     (∀ r : Request, s.taken k = some r → runs (commandOf k) s (serve k r (took k.stream s))) ∧
     (s.taken k = none → runs (commandOf k) s s)) ∧
  (∀ (c : Instr) (s t : State), exec c s = .next t → t.pow.state.awake = true → ∀ q ∈ t.link.inbound,
     (q.kind.stream = .display ∧ t.img.stall ≠ none) ∨ (q.kind.stream = .store ∧ 4 ≤ t.hostOps))

/-! ## DISPLAY stream -/

/-- TONE_MAP replaces the whole map when every entry is a level, and is otherwise refused RANGE with the old map in
force (R8).
PAGE_TAG sets the target's tag, its body's bytes 0 to 3, and its turn mode, byte 4 (that layout is read from 12.2,
log 16: the spec gives the fields alone); a mode of SKIM, or no mode, is refused RANGE (R67). -/
def Obligations.ToneMapAndPageTag : Prop :=
  (∀ (s : State) (r : Request), s.taken .toneMap = some r →
     ((∀ b ∈ r.body, b.toNat ≤ 15) →
       runs .toneMap s (replied .toneMap r .ok []
         { took .display s with img := { s.img with toneMap := r.body.map fun b => b.toNat } })) ∧
     ((∃ b ∈ r.body, 15 < b.toNat) → runs .toneMap s (refusedWith .toneMap r .range s))) ∧
  (∀ (s : State) (r : Request), s.taken .pageTag = some r →
     (∀ m : Mode, m ≠ .skim → byteAt r.body 4 = m.code →
       runs .pageTag s (replied .pageTag r .ok []
         { took .display s with cache := { s.cache with tag := BitVec.ofNat 32 (nat32At r.body 0), turnMode := m } })) ∧
     (3 ≤ byteAt r.body 4 → runs .pageTag s (refusedWith .pageTag r .range s)))

/-- UPDATE: RANGE, then FULL, and otherwise the clipped update joins the queue's tail with its place in the DISPLAY order, is
answered OK, and the arbiter looks (R33, R34, R35, R37; that the response comes before the notices of the look is the model's
choice, log 38). -/
def Obligations.UpdateAdmission : Prop :=
  ∀ (s : State) (r : Request), s.taken .update = some r →
    let q := rectAt r.body 2
    let legal := nat16At r.body 0 ≠ 0 ∧ byteAt r.body 10 ≤ 3 ∧ byteAt r.body 11 ≤ 1 ∧ q.x0 ≤ q.x1 ∧ q.y0 ≤ q.y1 ∧
      q.x0 ≤ 1599 ∧ q.y0 ≤ 1199
    let room := s.eng.queue.length < 32 ∧ s.eng.queue.length + s.lanesOccupied + s.eng.completions.length < 48
    (¬ legal → runs .update s (refusedWith .update r .range s)) ∧
    (legal → ¬ room → runs .update s (refusedWith .update r .full s)) ∧
    (legal → room → ∀ m : Mode, byteAt r.body 10 = m.code →
      let region : Rect := { x0 := q.x0, y0 := q.y0, x1 := min q.x1 1599, y1 := min q.y1 1199 }
      let entry : QEntry :=
        { num := s.eng.nextNum, id := nat16At r.body 0, region := region,
          tiles := { tx0 := q.x0 / 16, ty0 := q.y0 / 16, tx1 := region.x1 / 16, ty1 := region.y1 / 16 },
          mode := m, noPromote := byteAt r.body 11 == 1, origin := .host, place := s.displayPlace + 1, pick := none }
      runs .update s (lookPass (replied .update r .ok []
        { took .display s with eng := { s.eng with
          queue := s.eng.queue ++ [entry], nextNum := s.eng.nextNum + 1 } })))

/-- ABORT (R49). A selector above 1 is refused RANGE (R176). Otherwise each matching WAITING entry, then a matching CLAIMING one,
leaves the queue with an ABORTED record; the CLAIMING one's claim is withdrawn and its waveform unclaimed (R23, R41, R105); every
matching lane is STOPPING; a withdrawal is a decision point, and with entries removed the arbiter looks (R37). It answers OK with
the count of entries removed and lanes newly marked. The order of the WAITING entries' records (log 39), and that the response
comes after the notices (log 38), are the model's choice. -/
def Obligations.AbortClearsMatches : Prop :=
  ∀ (s : State) (r : Request), s.taken .abort = some r →
    (1 < byteAt r.body 0 → runs .abort s (refusedWith .abort r .range s)) ∧
    (byteAt r.body 0 ≤ 1 →
      let id : Option Nat := if byteAt r.body 0 = 0 then some (nat16At r.body 1) else none
      let count := (s.eng.queue.countP fun e => matchesId id e.id) + s.eng.lanes.countP fun l => match l with
        | some l => matchesId id l.id && l.state != .stopping
        | none => false
      let waiting := s.eng.queue.filter fun e => matchesId id e.id && e.pick.isNone
      let claiming := s.eng.queue.filter fun e => matchesId id e.id && e.pick.isSome
      let unclaimed (num : Nat) (ws : List Wave) : List Wave :=
        (ws.map fun w => if w.num = num then { w with claimed := false } else w).filter fun w =>
          !(w.state == .retired && !w.inUse)
      let removed (u : State) (e : QEntry) : State :=
        let queue := u.eng.queue.filter fun a => a.num != e.num
        match e.pick with
        | none => appendCompletion { id := e.id, status := .aborted, mode := e.mode, promoted := false, origin := e.origin }
            { u with eng := { u.eng with queue := queue } }
        | some p => appendCompletion
            { id := e.id, status := .aborted, mode := p.mode, promoted := p.promoted, origin := e.origin }
            { u with eng := { u.eng with queue := queue },
                     sup := { u.sup with waiting := u.sup.waiting.filter fun c => c.who != .engine },
                     wav := { u.wav with waves := unclaimed p.wave u.wav.waves } }
      let gone := (waiting ++ claiming).foldl removed (took .display s)
      let marked : State := { gone with eng := { gone.eng with
        lanes := s.eng.lanes.map fun l => l.map fun l => if matchesId id l.id = true then { l with state := .stopping } else l } }
      let passed := if claiming = [] then marked else decisionPass marked
      let t := if waiting ++ claiming = [] then passed else lookPass passed
      runs .abort s (replied .abort r .ok [byteOf count] t) ∧
        (∀ e ∈ t.eng.queue, matchesId id e.id = false) ∧
        (∀ l, some l ∈ t.eng.lanes → matchesId id l.id = true → l.state = .stopping))

/-- PIXELS is refused by the checks of R9 in their order, and a refused PIXELS changes no plane, tile or list.
A good PIXELS packet for the target lands when its tiles meet no owned tile and no held packet: its levels enter the
target plane, its tiles become pending and it is answered OK; it is held at the list's tail when they do and the list
has room, answered OK; and otherwise it stalls unanswered (R12, R13, R14). One for an OPEN entry is written there and
its pixels marked (R11, R69).
The converted packet: the rectangle as sent and its place; of GRAY8 each byte becomes the level its tone map entry gives, of
LEVEL4 each half byte is a level, high half first, in row-major order; its tiles are those of the part on the panel (R10).
What a pixel of the panel reads after each plane operation: a write puts the levels there in row-major order, a copy takes the
source's, a map changes them by its function, within the rectangle alone; a fill puts the fill level at every pixel not written.
Each keeps a plane's pixels strictly rising (R1, R2, R10, R11, R43, R47, R69, R70). -/
def Obligations.PixelsPackets : Prop :=
  (∀ (s : State) (r : Request), s.taken .pixels = some r →
     let b := r.body
     let q := rectAt b 2
     let range := ¬ (byteAt b 0 < 8 ∨ byteAt b 0 = 0xFF) ∨ 1 < byteAt b 1 ∨
       ¬ (q.x0 ≤ q.x1 ∧ q.y0 ≤ q.y1 ∧ q.x0 ≤ 1599 ∧ q.y0 ≤ 1199)
     let n := (q.x1 - q.x0 + 1) * (q.y1 - q.y0 + 1)
     let length := (b.drop 10).length ≠ (if byteAt b 1 = 0 then n else (n + 1) / 2) ∨ 4096 < (b.drop 10).length
     let state := byteAt b 0 ≠ 0xFF ∧
       ∀ e, s.cache.entries.find? (fun e => e.num == byteAt b 0) = some e → e.isOpen = false
     (range → runs .pixels s (refusedWith .pixels r .range s)) ∧
     (¬ range → length → runs .pixels s (refusedWith .pixels r .length s)) ∧
     (¬ range → ¬ length → state → runs .pixels s (refusedWith .pixels r .state s))) ∧
  (∀ (s : State) (r : Request), s.taken .pixels = some r → s.pixelsCheck r.body = none →
     let u := took .display s
     let p := u.convertPixels r.body
     let hold := s.owned p.tiles = true ∨ ∃ h ∈ s.img.held, h.tiles.meets p.tiles = true
     let fits := (s.img.held.map fun h => h.payload + 16).sum + (p.payload + 16) ≤ 65536
     (byteAt r.body 0 = 0xFF → ¬ hold →
       runs .pixels s (replied .pixels r .ok [] { u with img := { s.img with
         target := planeWrite s.img.target p.rect p.levels,
         tiles := mapTiles (fun k t => if p.tiles.holds k then { t with pending := true } else t) 0 s.img.tiles,
         stall := none } })) ∧
     (byteAt r.body 0 = 0xFF → hold → fits →
       runs .pixels s (replied .pixels r .ok [] { u with img := { s.img with
         held := s.img.held ++ [p], stall := none } })) ∧
     (byteAt r.body 0 = 0xFF → hold → ¬ fits →
       runs .pixels s { u with img := { s.img with stall := some (r, p) } }) ∧
     (byteAt r.body 0 ≠ 0xFF →
       runs .pixels s (replied .pixels r .ok [] { u with cache := s.cache.modify (byteAt r.body 0) fun e =>
         { e with written := writeCells e.written p.rect p.levels } }))) ∧
  (∀ (s : State) (b : List Byte), s.pixelsCheck b = none →
     let p := s.convertPixels b
     let q := rectAt b 2
     let data := b.drop 10
     p.rect = q ∧ p.payload = data.length ∧ p.place = s.displayPlace ∧
     p.levels.length = (q.x1 - q.x0 + 1) * (q.y1 - q.y0 + 1) ∧
     (byteAt b 1 = 0 → ∀ i < p.levels.length, p.levels.getD i 0 = s.img.toneMap.getD (byteAt data i) 0) ∧
     (byteAt b 1 = 1 → ∀ i < p.levels.length,
       p.levels.getD i 0 = if i % 2 = 0 then byteAt data (i / 2) / 16 else byteAt data (i / 2) % 16) ∧
     p.tiles = { tx0 := q.x0 / 16, ty0 := q.y0 / 16, tx1 := min q.x1 1599 / 16, ty1 := min q.y1 1199 / 16 }) ∧
  (∀ (p q : Plane) (r : Rect) (levels : List Nat) (f : Nat → Nat) (fill : Nat),
     r.x0 ≤ r.x1 → r.y0 ≤ r.y1 → levels.length = (r.x1 - r.x0 + 1) * (r.y1 - r.y0 + 1) →
     let rises (p : Plane) : Prop := p.Pairwise fun a b => a.1 < b.1
     (∀ k < 1920000,
       let listed (p : Plane) : Option (Nat × Nat) := p.find? fun c => c.1 == k
       let within := r.x0 ≤ k % 1600 ∧ k % 1600 ≤ r.x1 ∧ r.y0 ≤ k / 1600 ∧ k / 1600 ≤ r.y1
       let sent := levels.getD ((k / 1600 - r.y0) * (r.x1 - r.x0 + 1) + (k % 1600 - r.x0)) 0
       planeLevel (planeWrite p r levels) k = (if within then sent else planeLevel p k) ∧
       listed (writeCells p r levels) = (if within then some (k, sent) else listed p) ∧
       planeLevel (planeCopy p q r) k = (if within then planeLevel q k else planeLevel p k) ∧
       (rises p →
         planeLevel (planeMap f p r) k = (if within then f (planeLevel p k) else planeLevel p k) ∧
         planeLevel (planeFill fill p) k = ((listed p).map Prod.snd).getD fill)) ∧
     (rises p → rises (planeWrite p r levels) ∧ rises (writeCells p r levels) ∧ rises (planeMap f p r) ∧
       rises (planeFill fill p) ∧ (rises q → rises (planeCopy p q r))))

/-- CACHE_OPEN: RANGE, FULL, ROOM with available_to_cache, and otherwise a new OPEN entry with the lowest free number at
the list's tail, fifteen free slabs and the response OK with the number (R59, R60, R68). -/
def Obligations.CacheOpenMakesEntry : Prop :=
  ∀ (s : State) (r : Request), s.taken .cacheOpen = some r →
    let b := r.body
    let legal := byteAt b 0 ≤ 1 ∧ byteAt b 1 ≤ 2 ∧ byteAt b 2 ≤ 15
    let available := s.freeCount - (s.settingNat .fetchFloor - s.fetchHeld)
    (¬ legal → runs .cacheOpen s (refusedWith .cacheOpen r .range s)) ∧
    (∀ (d : Dir) (m : Mode), legal → byteAt b 0 = d.code → byteAt b 1 = m.code →
      (d.capacity ≤ (s.cache.list d).length → runs .cacheOpen s (refusedWith .cacheOpen r .full s)) ∧
      ((s.cache.list d).length < d.capacity → available < 15 →
        runs .cacheOpen s (replied .cacheOpen r .room [byteOf available] (took .display s))) ∧
      ((s.cache.list d).length < d.capacity → 15 ≤ available →
        let n := s.cache.freeNumber
        let e : Entry := { num := n, tag := BitVec.ofNat 32 (nat32At b 3), turnMode := m, fill := some (byteAt b 2),
                           isOpen := true, written := [], plane := [] }
        runs .cacheOpen s (replied .cacheOpen r .ok [byteOf n] { took .display s with
          cache := s.cache.setList d (s.cache.list d ++ [e]), pool := takeSlabs (.entry n) 15 s.pool })))

/-- CACHE_READY: RANGE above 7, STATE without an OPEN entry of that number, and otherwise every unwritten pixel takes the
fill level, the marks are discarded and the entry is READY (R70).
CACHE_DROP of a number or of a list: the entries leave, their slabs pass to FREE, which is a credit point, and the
response carries the count (R60, R71). -/
def Obligations.CacheReadyAndDrop : Prop :=
  (∀ (s : State) (r : Request), s.taken .cacheReady = some r →
     let n := byteAt r.body 0
     (7 < n → runs .cacheReady s (refusedWith .cacheReady r .range s)) ∧
     (n ≤ 7 → s.entryOpen n = false → runs .cacheReady s (refusedWith .cacheReady r .state s)) ∧
     (n ≤ 7 → s.entryOpen n = true →
       runs .cacheReady s (replied .cacheReady r .ok [] { took .display s with cache := s.cache.modify n fun e =>
         { e with plane := planeFill (e.fill.getD 15) e.written, written := [], isOpen := false } }))) ∧
  (∀ (s : State) (r : Request), s.taken .cacheDrop = some r →
     let u := took .display s
     let n := byteAt r.body 1
     (2 < byteAt r.body 0 → runs .cacheDrop s (refusedWith .cacheDrop r .range s)) ∧
     (byteAt r.body 0 = 0 → 7 < n → runs .cacheDrop s (refusedWith .cacheDrop r .range s)) ∧
     (byteAt r.body 0 = 0 → n ≤ 7 → s.cache.find n = none → runs .cacheDrop s (refusedWith .cacheDrop r .state s)) ∧
     (byteAt r.body 0 = 0 → n ≤ 7 → s.cache.find n ≠ none →
       runs .cacheDrop s (replied .cacheDrop r .ok [1] (creditPoint { u with
         cache := { s.cache with forward := s.cache.forward.filter fun e => e.num != n,
                                 back := s.cache.back.filter fun e => e.num != n },
         pool := s.pool.map fun h => if h = .entry n then .free else h }))) ∧
     (∀ d : Dir, byteAt r.body 0 = d.code + 1 →
       runs .cacheDrop s (replied .cacheDrop r .ok [byteOf (s.cache.list d).length] (creditPoint { u with
         cache := s.cache.setList d [],
         pool := s.pool.map fun h => if (s.cache.list d).any (fun e => h == .entry e.num) then .free else h }))))

/-- TURN: a direction above 1 is refused RANGE; a miss is answered OK with its reason and the target's tag, appends its record
and changes nothing else; a turn is answered OK with the new target's tag (R72, R76, R77; that the response comes after the
notices of the turn and its look is the model's choice, log 38).
The miss reasons are judged in the order of R72, and only a READY head with an idle panel, no pending tile and
fewer than 48 completion records turns. -/
def Obligations.TurnOutcomes : Prop :=
  (∀ (s : State) (r : Request), s.taken .turn = some r →
     let u := took .display s
     (1 < byteAt r.body 0 → runs .turn s (refusedWith .turn r .range s)) ∧
     (∀ (d : Dir) (m : Miss), byteAt r.body 0 = d.code → s.turnMiss d = some m →
       runs .turn s (replied .turn r .ok ([1, byteOf (missCode (some m))] ++ le32 s.cache.tag.toNat)
         (appendTurn { dir := d, miss := some m, tag := s.cache.tag, dropped := none, source := .host,
                       time := s.keyClock } u))) ∧
     (∀ d : Dir, byteAt r.body 0 = d.code → s.turnMiss d = none →
       ∃ e rest, s.cache.list d = e :: rest ∧
         runs .turn s (replied .turn r .ok ([0, 0] ++ le32 e.tag.toNat) (turnNow d .host (s.displayPlace + 1) e rest u)))) ∧
  (∀ (s : State) (d : Dir),
     (s.cache.list d = [] → s.turnMiss d = some .empty) ∧
     (∀ e rest, s.cache.list d = e :: rest →
       (e.isOpen = true → s.turnMiss d = some .notReady) ∧
       (e.isOpen = false →
         let busy := s.eng.queue ≠ [] ∨ (∃ l, some l ∈ s.eng.lanes) ∨ s.img.held ≠ []
         (busy → s.turnMiss d = some .busy) ∧
         (¬ busy → (∃ t ∈ s.img.tiles, t.pending = true) → s.turnMiss d = some .dirty) ∧
         (¬ busy → (∀ t ∈ s.img.tiles, t.pending = false) → 48 ≤ s.eng.completions.length →
           s.turnMiss d = some .full) ∧
         (¬ busy → (∀ t ∈ s.img.tiles, t.pending = false) → s.eng.completions.length < 48 → s.turnMiss d = none))))

/-- A turn exchanges the head's page with the target's, makes the old page the READY head of the other list under the
same number, drops what overflows, and makes every tile pending, with no other list, lane or plane touched (R60, R73,
R74).
An attempt with a miss only appends its record, and one without turns to the head (R72). A turn appends its update, id 0,
over the whole panel and every tile, in the new target's turn mode or SKIM for a run, with its record, or only the lost mark
when 16 wait; the freed slabs make it a credit point, and the arbiter looks. An entry that overflows the other list is dropped:
its slabs pass to FREE and the record names it (R60, R73, R74, R75, R77, R81). That TURN joins the outbound queue before the
notices of the look is the model's choice (log 34). -/
def Obligations.TurnExchangesPages : Prop :=
  (∀ (s : State) (d : Dir) (e : Entry) (rest : List Entry),
     let t := exchange d e rest s
     let old : Entry := { num := e.num, tag := s.cache.tag, turnMode := s.cache.turnMode, fill := none, isOpen := false,
                          written := [], plane := s.img.target }
     t.img = { s.img with target := e.plane, tiles := s.img.tiles.map fun x => { x with pending := true } } ∧
     t.cache.tag = e.tag ∧ t.cache.turnMode = e.turnMode ∧ t.cache.records = s.cache.records ∧
     t.cache.list d = rest ∧
     t.cache.list d.other = (old :: s.cache.list d.other).take d.other.capacity ∧
     ((s.cache.list d.other).length < d.other.capacity →
       t.pool = s.pool.map fun h => if h = .target then .entry e.num else if h = .entry e.num then .target else h) ∧
     t.eng = s.eng ∧ t.wav = s.wav ∧ t.light = s.light ∧ t.sup = s.sup ∧ t.fetch = s.fetch ∧ t.store = s.store ∧
     t.content = s.content ∧ t.keys = s.keys ∧ t.pow = s.pow ∧ t.link = s.link ∧ t.settings = s.settings) ∧
  (∀ (s : State) (d : Dir) (src : Source) (place : Nat) (e : Entry) (rest : List Entry),
     let x := exchange d e rest s
     let fallen := if (s.cache.list d.other).length < d.other.capacity then none else (s.cache.list d.other).getLast?
     let update : QEntry :=
       { num := s.eng.nextNum, id := 0, region := { x0 := 0, y0 := 0, x1 := 1599, y1 := 1199 },
         tiles := { tx0 := 0, ty0 := 0, tx1 := 99, ty1 := 74 }, mode := if src = .run then .skim else e.turnMode,
         noPromote := false, origin := .cache, place := place, pick := none }
     let record : TurnRecord := { dir := d, miss := none, tag := e.tag, dropped := fallen.map fun t => (t.num, t.tag),
                                  source := src, time := s.keyClock }
     let u : State := { x with eng := { s.eng with queue := s.eng.queue ++ [update], nextNum := s.eng.nextNum + 1 } }
     (∀ m, s.turnMiss d = some m → turnAttempt d src place s = appendTurn
       { dir := d, miss := some m, tag := s.cache.tag, dropped := none, source := src, time := s.keyClock } s) ∧
     (s.turnMiss d = none → s.cache.list d = e :: rest → turnAttempt d src place s = turnNow d src place e rest s) ∧
     (s.cache.records.length < 16 → turnNow d src place e rest s = lookPass (creditPoint (trigger .turn
       { u with cache := { x.cache with records := s.cache.records ++ [record] } }))) ∧
     (16 ≤ s.cache.records.length →
       turnNow d src place e rest s = lookPass (creditPoint { u with cache := { x.cache with lost := true } })) ∧
     (∀ t, fallen = some t → x.pool = (s.pool.map fun h =>
       if h = .target then .entry e.num else if h = .entry e.num then .target else h).map fun h =>
         if h = .entry t.num then .free else h))

/-! ## Waveforms -/

/-- WAVE_BEGIN, with mode, band, phase count and tile current in bytes 0 to 3 (that layout is read from 12.2, log 16): STATE with
a load open, RANGE, ROOM with the free units, and otherwise a LOADING record of all-HOLD phases (R20).
WAVE_DATA: STATE with no load open, LENGTH unless whole phase units, RANGE past the phase count, and otherwise the
run replaces the phases from the first one on (R21).
WAVE_END: STATE with no load open; a differing CRC-32 discards the load and answers RANGE; a matching one installs
the load and answers OK: the slot's old waveform is RETIRED if in use and freed if not, no record but the load's is added to the
slots, and of the load no LOADING record is left (R22, R25). -/
def Obligations.WaveformLoad : Prop :=
  (∀ (s : State) (r : Request), s.taken .waveBegin = some r →
     let b := r.body
     let busy := ∃ w ∈ s.wav.waves, w.state = .loading
     let legal := byteAt b 0 ≤ 3 ∧ byteAt b 1 < s.wav.table.count ∧ 1 ≤ byteAt b 2
     (busy → runs .waveBegin s (refusedWith .waveBegin r .state s)) ∧
     (¬ busy → ¬ legal → runs .waveBegin s (refusedWith .waveBegin r .range s)) ∧
     (¬ busy → legal → s.freeUnits < byteAt b 2 →
       runs .waveBegin s (replied .waveBegin r .room (le16 s.freeUnits) (took .display s))) ∧
     (¬ busy → legal → byteAt b 2 ≤ s.freeUnits → ∀ m : Mode, byteAt b 0 = m.code →
       runs .waveBegin s (replied .waveBegin r .ok [] { took .display s with wav := { s.wav with
         waves := s.wav.waves ++ [{
           num := s.wav.nextNum, mode := m, band := byteAt b 1, current := byteAt b 3,
           phases := List.replicate (byteAt b 2) (List.replicate 64 0), state := .loading, lanes := 0,
           claimed := false }],
         nextNum := s.wav.nextNum + 1 } }))) ∧
  (∀ (s : State) (r : Request), s.taken .waveData = some r →
     (s.openLoad = none → runs .waveData s (refusedWith .waveData r .state s)) ∧
     (∀ w, s.openLoad = some w →
       let run := r.body.drop 1
       let first := byteAt r.body 0
       (run.length % 64 ≠ 0 → runs .waveData s (refusedWith .waveData r .length s)) ∧
       (run.length % 64 = 0 → w.phases.length < first + run.length / 64 →
         runs .waveData s (refusedWith .waveData r .range s)) ∧
       (run.length % 64 = 0 → first + run.length / 64 ≤ w.phases.length →
         runs .waveData s (replied .waveData r .ok [] { took .display s with wav := { s.wav with
           waves := s.wav.waves.map fun v => if v.num = w.num then
             { v with phases := v.phases.take first ++ phaseUnitsOf run ++ v.phases.drop (first + run.length / 64) }
             else v } })))) ∧
  (∀ (s : State) (r : Request), s.taken .waveEnd = some r →
     (s.openLoad = none → runs .waveEnd s (refusedWith .waveEnd r .state s)) ∧
     (∀ w, s.openLoad = some w →
       (crc32 w.phases.flatten ≠ BitVec.ofNat 32 (nat32At r.body 0) →
         runs .waveEnd s (replied .waveEnd r .range [] { took .display s with wav := { s.wav with
           waves := s.wav.waves.filter fun v => v.state != .loading } })) ∧
       (crc32 w.phases.flatten = BitVec.ofNat 32 (nat32At r.body 0) →
         let kept := (s.wav.waves.map fun v => if v.state = .installed ∧ v.mode = w.mode ∧ v.band = w.band then
           { v with state := .retired } else v).filter fun v => !(v.state == .retired && !v.inUse)
         let t := kept.map fun v => if v.num = w.num then { v with state := .installed } else v
         runs .waveEnd s (replied .waveEnd r .ok [] { took .display s with wav := { s.wav with waves := t } }) ∧
           (∀ v ∈ t, v.state = .loading → v ∈ s.wav.waves ∧ v.num ≠ w.num) ∧
           (∀ v ∈ s.wav.waves, v.num ≠ w.num → ¬ (v.state = .installed ∧ v.mode = w.mode ∧ v.band = w.band) →
             v.state ≠ .retired → v ∈ t) ∧
           (∀ v ∈ s.wav.waves, v.num ≠ w.num → v.state = .installed → v.mode = w.mode → v.band = w.band →
             (v.inUse = true → { v with state := .retired } ∈ t) ∧ v ∉ t) ∧
           ({ w with state := .installed } ∈ t))))

/-- WAVE_DROP, with its mode in byte 0 and its band in byte 1 (that layout is read from 12.2, log 16): RANGE for no mode or a
band not below the count in force, and otherwise the slot's waveform is RETIRED if it is in use and freed if not, and no other
record changes (R23, R24).
BANDS: RANGE, LENGTH and RANGE in the order of R26, and otherwise the table is replaced, the reading and the band are
discarded, slots at or above the count are emptied, an open load there is discarded and a TEMP conversion is requested
unless one is requested or running; an emptied slot's record in use is RETIRED, one not in use is freed, and the fault flag, the
range flag, the recorded events and the interval timer stay (R24 to R26, R28).
The band walk of R27 ends where neither move applies. -/
def Obligations.WaveDropAndBands : Prop :=
  (∀ (s : State) (r : Request), s.taken .waveDrop = some r →
     (3 < byteAt r.body 0 ∨ s.wav.table.count ≤ byteAt r.body 1 →
       runs .waveDrop s (refusedWith .waveDrop r .range s)) ∧
     (∀ m : Mode, byteAt r.body 0 = m.code → byteAt r.body 1 < s.wav.table.count →
       ∃ t : List Wave, runs .waveDrop s (replied .waveDrop r .ok [] { took .display s with wav := { s.wav with waves := t } }) ∧
         (∀ v ∈ t, ¬ (v.state = .installed ∧ v.mode = m ∧ v.band = byteAt r.body 1)) ∧
         (∀ v ∈ s.wav.waves, v.state = .installed → v.mode = m → v.band = byteAt r.body 1 →
           (v.inUse = true → { v with state := .retired } ∈ t) ∧
           (v.inUse = false → v ∉ t ∧ { v with state := .retired } ∉ t)) ∧
         (∀ v ∈ s.wav.waves, ¬ (v.state = .installed ∧ v.mode = m ∧ v.band = byteAt r.body 1) →
           (v.state ≠ .retired ∨ v.inUse = true) → v ∈ t) ∧
         (∀ v ∈ t, v ∈ s.wav.waves ∨ ∃ w ∈ s.wav.waves, w.state = .installed ∧ v = { w with state := .retired }))) ∧
  (∀ (s : State) (r : Request), s.taken .bands = some r →
     let n := byteAt r.body 0
     let sized := 1 ≤ n ∧ n ≤ 12 ∧ byteAt r.body 1 ≤ 50
     let rising := (boundsOf r.body).Pairwise (· < ·)
     (¬ sized → runs .bands s (refusedWith .bands r .range s)) ∧
     (sized → (boundsOf r.body).length ≠ n - 1 → runs .bands s (refusedWith .bands r .length s)) ∧
     (sized → (boundsOf r.body).length = n - 1 → ¬ rising → runs .bands s (refusedWith .bands r .range s)) ∧
     (sized → (boundsOf r.body).length = n - 1 → rising →
       let left := (s.wav.waves.filter fun v => !(v.state == .loading && decide (n ≤ v.band))).map fun v =>
         if v.state = .installed ∧ n ≤ v.band then { v with state := .retired } else v
       let t : WaveStore := { s.wav with
         waves := left.filter fun v => !(v.state == .retired && !v.inUse), reading := none, band := none,
         table := { count := n, bounds := boundsOf r.body, hyst := byteAt r.body 1 } }
       runs .bands s (replied .bands r .ok [] (tempRequest { took .display s with wav := t })) ∧
         (∀ v ∈ s.wav.waves, v.state = .installed → n ≤ v.band → v.inUse = true → { v with state := .retired } ∈ t.waves) ∧
         (∀ v ∈ s.wav.waves, v.state = .retired → v.inUse = true → v ∈ t.waves) ∧
         (∀ v ∈ t.waves, byteAt r.body 0 ≤ v.band → v.state = .retired) ∧
         (∀ v ∈ s.wav.waves, v.band < byteAt r.body 0 → v.state ≠ .retired → v ∈ t.waves))) ∧
  (∀ (t : BandTable) (temp : Int) (k : Nat), k < t.count →
     let j := moveBand t temp t.count k
     j < t.count ∧ ¬ (j + 1 < t.count ∧ t.bounds.getD j 0 + t.hyst ≤ temp) ∧
       ¬ (0 < j ∧ temp < t.bounds.getD (j - 1) 0 - t.hyst))

/-! ## Front light -/

/-- LIGHT, with the level in its body's first two bytes and the warmth in the third, as in the response (that layout is read
from 12.2, log 16), stores the level, at most 1000, and the warmth, turns follow off, clears toggled-off and the drain level,
and the ramp acts on the targets; the response carries the values stored (R87). That the response comes after the notices of the
ramp is the model's choice (log 38).
What a change of targets does to the ramp: a stopped timer is armed for 10 ms in ACTIVE, DOZE and DRAINING if a
current differs, a running one is not re-armed, and one that finds the targets reached stops with TARGET_REACHED; the
state is judged anew, and nothing but the ramp, the state and the recorded events changes (R86, R88). -/
def Obligations.LightRequestMovesRamp : Prop :=
  (∀ (s : State) (r : Request), s.taken .light = some r →
     let level := min 1000 (nat16At r.body 0)
     let warmth := byteAt r.body 2
     runs .light s (replied .light r .ok (le16 level ++ [byteOf warmth]) (targetsChanged
       { took .light s with light := { s.light with
         levelTarget := level, warmthTarget := warmth, follow := false, settle := none, step := none,
         toggledOff := false, drainLevel := none } }))) ∧
  (∀ s : State,
     let t := targetsChanged s
     let differs := s.light.level ≠ s.light.levelTarget ∨ s.light.warmth ≠ s.light.warmthTarget
     (s.light.ramp = none → differs → s.pow.state.awake = true → t.light.ramp = some (s.now + 10000)) ∧
     (s.light.ramp = none → (¬ differs ∨ s.pow.state.awake = false) → t.light.ramp = none) ∧
     (s.light.ramp ≠ none → differs → t.light.ramp = s.light.ramp) ∧
     (s.light.ramp ≠ none → ¬ differs → t.light.ramp = none ∧ t.light.events.getLsbD 0 = true) ∧
     t.light = { s.light with ramp := t.light.ramp, state := s.light.judged, events := t.light.events } ∧
     t = { s with light := t.light, link := t.link })

/-- FOLLOW is refused by the checks of R93; off stops the settle timer and the steps and leaves the targets; on clears
toggled-off, stops the settle timer, arms the step for 500 ms and requests an AMB conversion; points given replace the
table (R93). -/
def Obligations.FollowTurnsOnAndOff : Prop :=
  ∀ (s : State) (r : Request), s.taken .follow = some r →
    let pts := pairs16 (r.body.drop 1)
    let u := took .light s
    let table := if pts = [] then s.light.table else pts
    let legal := byteAt r.body 0 ≤ 1 ∧ pts.length ≠ 1 ∧ (∀ p ∈ pts, p.2 ≤ 1000) ∧
      (pts.map Prod.fst).Pairwise (· < ·)
    (¬ legal → runs .follow s (refusedWith .follow r .range s)) ∧
    (legal → byteAt r.body 0 = 1 → table = [] → runs .follow s (refusedWith .follow r .state s)) ∧
    (legal → byteAt r.body 0 = 0 →
      runs .follow s (replied .follow r .ok []
        { u with light := { s.light with table := table, follow := false, settle := none, step := none } })) ∧
    (legal → byteAt r.body 0 = 1 → table ≠ [] →
      runs .follow s (replied .follow r .ok [] (convRequest .amb
        { u with light := { s.light with table := table, follow := true, toggledOff := false, settle := none,
                                         step := some (s.now + 500000) } })))

/-- A ramp step moves each current toward its target by its rate without passing it, then reports the claim, then arms the
timer again for 10 ms if a current still differs and otherwise stops it and records TARGET_REACHED (R88, R91). A stopped timer
expires to no effect (the model's choice, log 2).
A step toward a target never passes it, and reaches it when it is within the rate (R88). -/
def Obligations.RampStepMovesCurrents : Prop :=
  ((∀ s : State, s.light.ramp = none → runs .rampStep s s) ∧
   ∀ (s : State) (due : Nat), s.light.ramp = some due →
     let moved : State := { s with now := max s.now due, light := { s.light with
       level := moveToward (s.settingNat .rampRate) s.light.level s.light.levelTarget,
       warmth := moveToward (s.settingNat .warmthRate) s.light.warmth s.light.warmthTarget } }
     let t := reportClaim moved
     (t.light.level = moved.light.level ∧ t.light.warmth = moved.light.warmth ∧
       t.light.levelTarget = s.light.levelTarget ∧ t.light.warmthTarget = s.light.warmthTarget ∧
       t.light.claim = (s.settingNat .lightMaxUa * (t.light.level * t.light.level) / 1000000 + 999) / 1000 ∧
       t.now = moved.now ∧ t.content = s.content ∧ t.settings = s.settings ∧ t.fetch = s.fetch) ∧
     ((moved.light.level ≠ s.light.levelTarget ∨ moved.light.warmth ≠ s.light.warmthTarget) →
       runs .rampStep s { t with light := { t.light with ramp := some (moved.now + 10000) } }) ∧
     (moved.light.level = s.light.levelTarget → moved.light.warmth = s.light.warmthTarget →
       runs .rampStep s (trigger .light { t with light := { t.light with
         ramp := none, events := t.light.events ||| 1 } }))) ∧
  (∀ rate cur tgt : Nat,
     (cur ≤ tgt → cur ≤ moveToward rate cur tgt ∧ moveToward rate cur tgt ≤ tgt) ∧
     (tgt ≤ cur → tgt ≤ moveToward rate cur tgt ∧ moveToward rate cur tgt ≤ cur) ∧
     (levelGap cur tgt ≤ rate → moveToward rate cur tgt = tgt) ∧
     (rate < levelGap cur tgt → levelGap (moveToward rate cur tgt) tgt = levelGap cur tgt - rate))

/-- The warm and the cool current add up to the effective current, which never exceeds the grant, and each duty stays
within 0-4095 (R89).
PWM_PERIOD_START takes the duty that R89 gives now and the divider in force, for that channel alone, unless the
outputs are held off (R90). -/
def Obligations.PwmMixAndPeriod : Prop :=
  (∀ s : State, s.light.warmth ≤ 255 →
     s.warmUa + s.coolUa = s.lightEffUa ∧ s.lightEffUa ≤ s.light.grant * 1000 ∧ s.lightEffUa ≤ s.lightTotalUa ∧
       s.warmDutyNow ≤ 4095 ∧ s.coolDutyNow ≤ 4095) ∧
  (∀ s : State,
     (s.light.pwmOn = true →
       runs (.pwmPeriodStart .warm) s
         { s with light := { s.light with warmDuty := s.warmDutyNow, warmDiv := s.settingNat .pwmDiv } } ∧
       runs (.pwmPeriodStart .cool) s
         { s with light := { s.light with coolDuty := s.coolDutyNow, coolDiv := s.settingNat .pwmDiv } }) ∧
     (s.light.pwmOn = false → ∀ c, runs (.pwmPeriodStart c) s s))

/-- FOLLOW_STEP makes a step in ACTIVE and DOZE, is only armed again in STARTING, and makes none in DRAINING and SLEEP
(R94, R97; that the timer stays stopped there until the return is the model's reading, log 21).
FOLLOW_SETTLE_EXPIRY makes the level target the latest follow level, with the warmth target as it was, and the ramp
acts on it (R95).
An AMB value counts only while follow is on in ACTIVE and DOZE; its lux gives the follow level at, below and above the ends of
the table and between two points; the settle timer is armed, armed anew, stopped or left by the distances from the level target
and from the arming value, the level being the latest in each case; while toggled-off is set it is not armed (R94, R95). -/
def Obligations.FollowTimers : Prop :=
  (∀ (s : State) (due : Nat), s.light.step = some due →
     let u : State := { s with now := max s.now due }
     let again : State := { u with light := { s.light with step := some (u.now + 500000) } }
     ((s.pow.state = .active ∨ s.pow.state = .doze) → runs .followStep s (convRequest .amb again)) ∧
     (s.pow.state = .starting → runs .followStep s again) ∧
     ((s.pow.state = .draining ∨ s.pow.state = .sleep) →
       runs .followStep s { u with light := { s.light with step := none } })) ∧
  (∀ (s : State) (due : Nat), s.light.settle = some due →
     runs .followSettleExpiry s (targetsChanged
       { s with now := max s.now due, light := { s.light with levelTarget := s.light.latest, settle := none } })) ∧
  ((∀ (s : State) (raw : Nat),
     let active := s.light.follow = true ∧ (s.pow.state = .active ∨ s.pow.state = .doze)
     (¬ active → ambReading raw s = s) ∧
     (active → ambReading raw s = settleUpdate (followLevel s.light.table (raw * s.settingNat .ambientGain / 64)) s)) ∧
   (∀ (p q : Nat × Nat) (rest : List (Nat × Nat)) (lux : Nat),
     (lux ≤ p.1 → followLevel (p :: rest) lux = p.2) ∧
     (p.1 ≤ lux → lux < q.1 → ∀ before : List (Nat × Nat), (∀ x ∈ before, x.1 < p.1) →
       followLevel (before ++ p :: q :: rest) lux =
         ((p.2 : Int) + (((lux : Int) - p.1) * ((q.2 : Int) - p.2)) / ((q.1 : Int) - p.1)).toNat) ∧
     (p.1 ≤ lux → ∀ before : List (Nat × Nat), (∀ x ∈ before, x.1 < p.1) → followLevel (before ++ [p]) lux = p.2)) ∧
   (∀ (s : State) (f : Nat),
     let far (x : Nat) := s.settingNat .followHyst < (f - x) + (x - f)
     let latest : State := { s with light := { s.light with latest := f } }
     let armed : State := if s.light.toggledOff = true then latest else { s with light := { s.light with
       latest := f, arming := f, settle := some (s.now + 1000 * s.settingNat .followSettleMs) } }
     (s.light.settle = none →
       (far s.light.levelTarget → settleUpdate f s = armed) ∧ (¬ far s.light.levelTarget → settleUpdate f s = latest)) ∧
     (s.light.settle ≠ none →
       (¬ far s.light.levelTarget → settleUpdate f s = { s with light := { s.light with latest := f, settle := none } }) ∧
       (far s.light.levelTarget → far s.light.arming → settleUpdate f s = armed) ∧
       (far s.light.levelTarget → ¬ far s.light.arming → settleUpdate f s = latest))))

/-! ## Supply budget -/

/-- The decision pass judges the oldest claim: one that does not fit even with the light dark waits and the pass changes
nothing; a store claim that fits starts its operation with the light untouched (R106).
With no claim waiting, the light's grant becomes max(G, min(claim, limit - others)), and never passes the claim
(R107).
The pass grants the oldest claim when it fits with the light's grant, or, when it fits only with less light, cuts the light
to what is left first; the granted claim leaves the list, the engine starts its lane and looks or the store starts its
operation, and the pass goes on. A cut sets the cut mark, records CUT, puts the light in CUT,
with CUT_ENTERED where it was not, and lets no duty stand above the
mix of its new grant; one that would leave the grant as it is changes nothing (R90, R92, R106, R107, R110). That the look after
the lane's start is made inside the pass (log 49), and that LIGHT joins the queue before BUDGET (log 34), are the model's
choice.
The light reports a changed claim: one below its grant lowers the grant to it, and the release is a decision point; for one
above it asks a raise, answered at once from the headroom if no claim waits and not at all if one does; for one equal to it
nothing is asked. At each setting of the grant, and at a report that changes no claim, lower duties take effect at once, the
state is judged, CUT_ENTERED or CUT_LEFT is recorded, and a grant equal to the claim clears the cut mark and records RESTORED
(R86, R90, R91, R92, R107, R110; that LIGHT joins the queue before BUDGET is the model's choice, log 34). -/
def Obligations.DecisionPassOrder : Prop :=
  (∀ (s : State) (c : Claim) (rest : List Claim), s.sup.waiting = c :: rest →
     (s.sup.limit < s.others + c.amount → decisionPass s = s) ∧
     (c.who = .store → rest = [] → s.store.grant = none → s.others + c.amount + s.light.grant ≤ s.sup.limit →
       s.light.claim ≤ s.light.grant →
       decisionPass s = { s with
         sup := { s.sup with waiting := [] },
         store := { s.store with flash := .running, grant := some c.amount, page := 0, cut := false, suspends := 0,
                                 ran := 0, since := s.now } })) ∧
  (∀ s : State, s.sup.waiting = [] → s.light.grant ≤ s.light.claim →
     (decisionPass s).light.grant = max s.light.grant (min s.light.claim (s.sup.limit - s.others)) ∧
     (decisionPass s).light.grant ≤ s.light.claim ∧
     (s.total ≤ s.sup.limit → (decisionPass s).total ≤ s.sup.limit) ∧
     (decisionPass s).light.level = s.light.level ∧ (decisionPass s).light.levelTarget = s.light.levelTarget ∧
     (decisionPass s).eng = s.eng ∧ (decisionPass s).store = s.store ∧ sameBut s (decisionPass s)) ∧
  ((∀ (s : State) (c : Claim) (rest : List Claim), s.sup.waiting = c :: rest →
     let granted (u : State) : State :=
       let left : State := { u with sup := { u.sup with waiting := rest } }
       match c.who with
       | .engine => look (startLane left)
       | .store => { left with store := { u.store with
           flash := .running, grant := some c.amount, page := 0, cut := false, suspends := 0, ran := 0, since := u.now } }
     (s.others + c.amount + s.light.grant ≤ s.sup.limit → decisionPass s = decisionPass (granted s)) ∧
     (s.sup.limit < s.others + c.amount + s.light.grant → s.others + c.amount ≤ s.sup.limit →
       decisionPass s = decisionPass (granted (cutLight (s.sup.limit - (s.others + c.amount)) s)))) ∧
   (∀ (s : State) (g : Nat), s.light.grant ≤ s.light.claim →
     let held : State := { s with light := { s.light with grant := g } }
     (s.light.grant ≤ g → cutLight g s = s) ∧
     (g < s.light.grant →
       let cut (events : Byte) : State := { s with
         light := { s.light with
           grant := g, state := .cut, warmDuty := min s.light.warmDuty held.warmDutyNow,
           coolDuty := min s.light.coolDuty held.coolDutyNow, events := events },
         sup := { s.sup with cutMark := true, events := s.sup.events ||| 1 } }
       (s.light.state = .cut → cutLight g s = trigger .budget (cut s.light.events)) ∧
       (s.light.state ≠ .cut → cutLight g s = trigger .budget (trigger .light (cut (s.light.events ||| 2))))))) ∧
  (∀ s : State,
     let c := s.lightClaimMa
     let event (k : Nat) (u : State) : State :=
       trigger .light { u with light := { u.light with events := setEvent u.light.events k } }
     let taken (g : Nat) (u : State) : State :=
       let lit : State := { u with light := { u.light with claim := c, grant := g } }
       let new := lit.light.judged
       let mixed : State := { lit with light := { lit.light with
         warmDuty := min u.light.warmDuty lit.warmDutyNow, coolDuty := min u.light.coolDuty lit.coolDutyNow, state := new } }
       let judged := if new = .cut ∧ u.light.state ≠ .cut then event 1 mixed
         else if new ≠ .cut ∧ u.light.state = .cut then event 2 mixed else mixed
       if u.sup.cutMark = true ∧ g = c then
         trigger .budget { judged with sup := { judged.sup with cutMark := false, events := setEvent judged.sup.events 1 } }
       else judged
     (c = s.light.claim ∨ c = s.light.grant → reportClaim s = taken s.light.grant s) ∧
     (c ≠ s.light.claim → c < s.light.grant → reportClaim s = decisionPass (taken c s)) ∧
     (c ≠ s.light.claim → s.light.grant < c →
       (s.sup.waiting ≠ [] → reportClaim s = taken s.light.grant s) ∧
       (s.sup.waiting = [] → reportClaim s = taken (max s.light.grant (min c (s.sup.limit - s.others))) s)))

/-- The supply limit at, below and above the ends of the table, and between two points (R103).
LIMITS replaces the whole table and, with a voltage held, makes a new-limit event; a bad table is refused RANGE
(R102).
A new limit, in three steps: a waiting claim that no longer fits the whole limit is withdrawn and its entry or operation ends
LOW_SUPPLY (the engine's judged with the base setting in force now, the model's choice, log 40); a total above the limit cuts the
light to what the others leave; a decision pass is made. What a withdrawal leads to, a look or a selection, and the scheduling
point of a pause that ends come after, in that order (R41, R109, R126; the order is the model's choice, log 10). -/
def Obligations.SupplyLimitTable : Prop :=
  (∀ (p q : Nat × Nat) (rest : List (Nat × Nat)) (v : Nat),
     (v ≤ p.1 → limitFor (p :: rest) v = p.2) ∧
     (p.1 < v → v < q.1 → ∀ before : List (Nat × Nat), (∀ x ∈ before, x.1 < p.1) →
       limitFor (before ++ p :: q :: rest) v =
         ((p.2 : Int) + (((v : Int) - p.1) * ((q.2 : Int) - p.2)) / ((q.1 : Int) - p.1)).toNat) ∧
     (p.1 ≤ v → ∀ before : List (Nat × Nat), (∀ x ∈ before, x.1 < p.1) → limitFor (before ++ [p]) v = p.2)) ∧
  (∀ (s : State) (r : Request), s.taken .limits = some r →
     let pts := pairs16 r.body
     let u : State := { took .control s with sup := { s.sup with limitTable := pts } }
     let legal := 2 ≤ pts.length ∧ (∀ p ∈ pts, p.2 ≤ 1000) ∧ (pts.map Prod.fst).Pairwise (· < ·)
     (¬ legal → runs .limits s (refusedWith .limits r .range s)) ∧
     (legal → s.sup.volts = none → runs .limits s (replied .limits r .ok [] u)) ∧
     (∀ v, legal → s.sup.volts = some v →
       runs .limits s (replied .limits r .ok [] (newLimit (limitFor pts v) u)))) ∧
  (∀ (s : State) (limit : Nat),
     let s0 : State := { s with sup := { s.sup with limit := limit } }
     let cut (u : State) : State := if limit < u.total then cutLight (limit - u.others) u else u
     let resumed (u : State) : State :=
       if s.fetch.paused = true then schedulePoint { u with fetch := { u.fetch with paused := false } } else u
     let unclaimed (p : Pick) : List Wave := s.wav.waves.map fun w => if w.num = p.wave then { w with claimed := false } else w
     let withdrawn (e : QEntry) (p : Pick) : State := appendCompletion
       { id := e.id, status := .lowSupply, mode := p.mode, promoted := p.promoted, origin := e.origin } { s0 with
         eng := { s.eng with queue := s.eng.queue.filter fun a => a.num != e.num },
         sup := { s0.sup with waiting := s.sup.waiting.filter fun c => c.who != .engine },
         wav := { s.wav with waves := (unclaimed p).filter fun w => !(w.state == .retired && !w.inUse) } }
     let ended (u : State) : State := { u with
       store := { s.store with flash := .idle, op := none },
       sup := { u.sup with waiting := u.sup.waiting.filter fun c => c.who != .store } }
     let told (o : Op) (u : State) : State := match o.source with
       | .host r => respond r .lowSupply [] u
       | .fetch => fetchOutcome .lowSupply u
       | _ => u
     let engineEnds (e : QEntry) (p : Pick) := s.claimingEntry = some e ∧ e.pick = some p ∧
       limit < p.tilePart + s.settingNat .panelBaseMa
     let storeEnds (o : Op) := s.store.flash = .claiming ∧ s.store.op = some o ∧
       ∃ c, s.sup.waiting.find? (fun c => c.who == .store) = some c ∧ limit < c.amount
     ((∀ e p, ¬ engineEnds e p) → (∀ o, ¬ storeEnds o) → newLimit limit s = resumed (decisionPass (cut s0))) ∧
     (∀ e p, engineEnds e p → (∀ o, ¬ storeEnds o) →
       newLimit limit s = resumed (lookPass (decisionPass (cut (withdrawn e p))))) ∧
     (∀ o, (∀ e p, ¬ engineEnds e p) → storeEnds o →
       newLimit limit s = resumed (selectPoint (decisionPass (cut (told o (ended s0)))))) ∧
     (∀ e p o, engineEnds e p → storeEnds o →
       newLimit limit s = resumed (selectPoint (lookPass (decisionPass (cut (told o (ended (withdrawn e p)))))))))

/-- A BATT sample: the filter of eight, the voltage, and the low mark with its two thresholds; the new voltage sets the
supply limit in the same event (R100, R101, R103). The mark's POWER event is recorded before what the new limit makes: that
order is the model's choice (log 34). -/
def Obligations.SampleFiltersAndMarks : Prop :=
  ∀ (s : State) (raw : Nat),
    let f := if s.sup.filter = [] then List.replicate 8 raw else s.sup.filter.tail ++ [raw]
    let mv := (f.sum / 8 * 5000 + 2048) / 4096
    let low := s.settingNat .lowMarkMv
    let sampled (fired : Bool) : State :=
      { s with sup := { s.sup with filter := f, volts := some mv, lowFired := fired } }
    (s.sup.lowFired = false → mv < low →
      battSample raw s = newLimit (limitFor s.sup.limitTable mv) (recordPower 5 (sampled true))) ∧
    (s.sup.lowFired = false → low ≤ mv → battSample raw s = newLimit (limitFor s.sup.limitTable mv) (sampled false)) ∧
    (s.sup.lowFired = true → mv ≤ low + 50 →
      battSample raw s = newLimit (limitFor s.sup.limitTable mv) (sampled true)) ∧
    (s.sup.lowFired = true → low + 50 < mv →
      battSample raw s = newLimit (limitFor s.sup.limitTable mv) (sampled false))

/-- SAMPLE_TIMER_EXPIRY requests a BATT conversion (R99), and TEMP_INTERVAL_EXPIRY a TEMP conversion unless one is
requested or running (R28).
CONVERSION_END gives the value to the channel's owner, makes the channel the last served, and the converter chooses
anew; a sensor fault discards the reading and keeps the band; the first BATT sample of start-up begins the boot-table read (R28,
R31, R99, R159).
The converter's choice: powered and idle, it begins the first requested channel in the order TEMP, BATT, AMB after the last
served and clears its flag, for 200 µs; powered off, busy, or with no request, it begins none (R31).
An owner's request sets the flag of its channel, and the converter then chooses; the waveform store asks for TEMP only when it is
neither requested nor running, and the update engine's demand asks for it so unless the fault flag is set (R28, R31).
A good TEMP value: t = floor(raw × 1650 / 4096) - 500 dd replaces the reading and clears the fault flag; the band becomes the one
whose range holds t, or moves by the hysteresis; the range flag is judged by the settings in force; each change is recorded and
triggers TEMP; the interval timer is armed (R27, R28, R29, R30). -/
def Obligations.ConverterServesOwners : Prop :=
  ((∀ (s : State) (due : Nat), s.sup.sample = some due →
     runs .sampleTimerExpiry s (convRequest .batt
       { s with now := max s.now due, sup := { s.sup with sample := none } })) ∧
   (∀ (s : State) (due : Nat), s.wav.interval = some due →
     let u : State := { s with now := max s.now due, wav := { s.wav with interval := none } }
     ((s.conv.temp = true ∨ ∃ at_, s.conv.busy = some (.temp, at_)) → runs .tempIntervalExpiry s u) ∧
     (s.conv.temp = false → (∀ at_, s.conv.busy ≠ some (.temp, at_)) →
       runs .tempIntervalExpiry s (convRequest .temp u)))) ∧
  (∀ (s : State) (raw due : Nat) (c : Chan), s.conv.busy = some (c, due) →
     let u : State := { s with now := max s.now due, conv := { s.conv with busy := none, last := c } }
     (c = .amb → runs (.conversionEnd raw) s (convKick (ambReading raw u))) ∧
     (c = .batt → s.pow.state ≠ .starting →
       ∃ t : State, runs (.conversionEnd raw) s (convKick
           { t with sup := { t.sup with sample := some (t.now + 1000000) } }) ∧ t = battSample raw u) ∧
     (c = .batt → s.pow.state = .starting → s.pow.boot = none →
       runs (.conversionEnd raw) s (convKick (bootBegin (battSample raw u)))) ∧
     (c = .temp → 0 < raw → raw < 4095 → runs (.conversionEnd raw) s (convKick (lookPass (tempReading raw u)))) ∧
     (c = .temp → (raw = 0 ∨ 4095 ≤ raw) →
       runs (.conversionEnd raw) s (convKick (recordTemp 3 { u with wav := { s.wav with
         reading := none, fault := true, interval := some (u.now + 1000000 * s.settingNat .tempIntervalS) } })))) ∧
  (∀ s : State,
     let wants (c : Chan) : Prop := match c with
       | .temp => s.conv.temp = true
       | .batt => s.conv.batt = true
       | .amb => s.conv.amb = true
     let order : List Chan := match s.conv.last with
       | .temp => [.batt, .amb, .temp]
       | .batt => [.amb, .temp, .batt]
       | .amb => [.temp, .batt, .amb]
     (s.conv.powered = false ∨ s.conv.busy ≠ none ∨ (∀ c, ¬ wants c) → convKick s = s) ∧
     (∀ before c behind, s.conv.powered = true → s.conv.busy = none → order = before ++ c :: behind → wants c →
       (∀ d ∈ before, ¬ wants d) →
       convKick s = { s with conv := { s.conv with
         temp := s.conv.temp && c != .temp, batt := s.conv.batt && c != .batt, amb := s.conv.amb && c != .amb,
         busy := some (c, s.now + 200) } })) ∧
  (∀ s : State,
     (∀ c, convRequest c s = convKick { s with conv := { s.conv with
       temp := s.conv.temp || c == .temp, batt := s.conv.batt || c == .batt, amb := s.conv.amb || c == .amb } }) ∧
     ((s.conv.temp = true ∨ ∃ due, s.conv.busy = some (.temp, due)) → tempRequest s = s) ∧
     (s.conv.temp = false → (∀ due, s.conv.busy ≠ some (.temp, due)) →
       tempRequest s = convKick { s with conv := { s.conv with temp := true } }) ∧
     (s.wav.fault = true → tempDemand s = s) ∧ (s.wav.fault = false → tempDemand s = tempRequest s)) ∧
  (∀ (s : State) (raw : Nat), 0 < raw → raw < 4095 →
     let t : Int := ((raw * 1650 / 4096 : Nat) : Int) - 500
     let table := s.wav.table
     let band : Nat := match s.wav.band with
       | none => (table.bounds.filter fun b => decide (b ≤ t)).length
       | some k => moveBand table t table.count k
     let out : Bool := decide (t < s.setting .tempLowDd) || decide (s.setting .tempHighDd < t)
     let moved : Bool := s.wav.band != some band
     let turned : Bool := s.wav.outOfRange != out
     let once := if moved = true ∨ turned = true then trigger .temp s else s
     let twice := if moved = true ∧ turned = true then trigger .temp once else once
     tempReading raw s = { s with
       wav := { s.wav with
         reading := some (t, s.now), band := some band, outOfRange := out, fault := false,
         events := s.wav.events ||| (if moved = true then 1 else 0) ||| (if turned = true then (if out = true then 2 else 4) else 0),
         interval := some (s.now + 1000000 * s.settingNat .tempIntervalS) },
       link := twice.link })

/-! ## The update engine -/

/-- FRAME_BOUNDARY at which the last occupied lane ends, having applied its last phase, or stops, marked STOPPING: the shown
plane takes the target's levels over its region (for a stop, only if it drove), its tiles lose their owner and take the marks of
an end or of a stop, its record is appended with DONE or ABORTED, the supply stops and the base is released (R4, R5, R6, R45,
R47, R48, R50).
A frame boundary in the order of R45: first every lane that has applied its last phase ends, then every other STOPPING lane
stops, each in lane order; then the joining lanes drive; with a lane left each driving lane gets its next phase and the frame
opens; with none the supply stops, the base is released and a claim without it is raised by it (R41, R48); then for each lane
that went, in that order, come the decision pass of its release and the look. A lane dropped by a warm reset makes its look
alone (R54, R108; that it makes one is the model's reading, log 35).
A tile after the normal end of a lane (R4, R5, R6): its residue, unsure and pending marks by the mode and by whether
it lies wholly inside the region; the residue stays at most 255. After a stop it is unsure if the lane drove, and keeps its residue
and pending mark (R50). Tiles outside the lane's tile set keep everything.
At the end or stop of a lane its tiles are released first; then comes a landing pass; then it leaves its waveform, and one
that RETIRED and is no longer in use is freed; then its record is appended, unless a warm reset dropped the lane, and the lane
is free (R13, R17, R23, R47, R50, R54; of a lane STOPPING for ABORT at a warm reset, the model's choice, log 50).
A landing pass judges the held packets oldest first: one whose tiles meet an owned tile or an older held packet stays,
another lands in the target, its tiles pending. A packet that stalls is then tested again: it lands or is held at the tail, is
answered OK and stalls no longer, or finds no room and stalls on (R12, R13, R14). -/
def Obligations.LaneEndsOrStops : Prop :=
  (∀ (s : State) (due : Nat) (l : Lane) (pre post : List (Option Lane)),
     s.eng.boundary = some due → s.eng.lanes = pre ++ some l :: post → (∀ x ∈ pre ++ post, x = none) →
     (l.state = .stopping ∨ (l.state = .driving ∧ l.phase = l.total)) → l.dropped = false →
     s.img.held = [] → s.img.stall = none → s.eng.queue = [] → s.sup.waiting = [] →
     s.noticeWaits .done = true → s.eng.completions.length < 47 → s.light.claim ≤ s.light.grant →
     ∃ t : State, runs .frameBoundary s t ∧
       (l.phase = l.total →
         t.img.shown = planeCopy s.img.shown s.img.target l.region ∧ t.img.tiles = tilesEnded l s.img.tiles) ∧
       (l.phase ≠ l.total →
         t.img.shown = (if 0 < l.phase then planeCopy s.img.shown s.img.target l.region else s.img.shown) ∧
         t.img.tiles = tilesStopped l s.img.tiles) ∧
       t.img.target = s.img.target ∧
       t.eng.lanes = pre ++ none :: post ∧ t.eng.supply = .off ∧ t.eng.boundary = none ∧ t.eng.base = none ∧
       t.eng.completions = s.eng.completions ++
         [{ id := l.id, status := if l.phase = l.total then .done else .aborted, mode := l.mode, promoted := l.promoted,
            origin := l.origin }] ∧
       t.light = s.light ∧ t.sup = s.sup ∧ t.store = s.store ∧ t.content = s.content ∧ t.cache = s.cache ∧
       t.now = max s.now due) ∧
  (∀ (s : State) (due : Nat), s.eng.boundary = some due →
     let those (p : Lane → Bool) : List (Nat × Lane) := (List.range s.eng.lanes.length).filterMap fun i =>
       match s.eng.lanes[i]? with
       | some (some l) => if p l = true then some (i, l) else none
       | _ => none
     let ends := those fun l => (l.state == .driving || l.state == .stopping) && l.phase == l.total
     let stops := those fun l => l.state == .stopping && l.phase != l.total
     let gone := stops.foldl (fun u l => stopLane l.1 l.2 u) (ends.foldl (fun u l => endLane l.1 l.2 u)
       { s with now := max s.now due })
     let joined := gone.eng.lanes.map fun l => l.map fun l => if l.state = .joining then { l with state := .driving } else l
     let base := gone.settingNat .panelBaseMa
     let off : State := { gone with eng := { gone.eng with lanes := joined, supply := .off, boundary := none, base := none } }
     let after (u : State) : State := (ends ++ stops).foldl (fun u l =>
       if l.2.dropped = true then lookPass u else lookPass (decisionPass u)) u
     ((∃ l ∈ joined, l ≠ none) → runs .frameBoundary s (after { gone with eng := { gone.eng with
       lanes := joined.map fun l => l.map fun l => if l.state = .driving then { l with phase := l.phase + 1 } else l,
       supply := .on, boundary := some (gone.now + gone.settingNat .framePeriodUs) } })) ∧
     ((∀ l ∈ joined, l = none) →
       ((∀ e p, off.claimingEntry = some e → e.pick = some p → p.base ≠ none) → runs .frameBoundary s (after off)) ∧
       (∀ e p, off.claimingEntry = some e → e.pick = some p → p.base = none → runs .frameBoundary s (after { off with
         eng := { off.eng with queue := off.eng.queue.map fun e => { e with
           pick := e.pick.map fun p => { p with base := some base } } },
         sup := { off.sup with waiting := off.sup.waiting.map fun c =>
           if c.who = .engine then { c with amount := c.amount + base } else c } })))) ∧
  ((∀ (m : Mode) (whole : Bool) (t : Tile),
     (tileEnded m whole t).owner = none ∧
     (tileEnded m whole t).residue =
       (if m = .clear then (if whole = true then 0 else t.residue)
        else if m = .skim then min 255 (t.residue + 2) else min 255 (t.residue + 1)) ∧
     (tileEnded m whole t).unsure = (if m = .clear ∧ whole = true then false else t.unsure) ∧
     (tileEnded m whole t).pending = (if whole = true then false else t.pending) ∧
     (t.residue ≤ 255 → (tileEnded m whole t).residue ≤ 255)) ∧
   (∀ (l : Lane) (tiles : List Tile) (k : Nat) (t : Tile), tiles[k]? = some t →
     (l.tiles.holds k = true →
       (tilesEnded l tiles)[k]? = some (tileEnded l.mode (l.region.wholeTile k) t) ∧
       (tilesStopped l tiles)[k]? =
         some { t with owner := none, unsure := if 0 < l.phase then true else t.unsure }) ∧
     (l.tiles.holds k = false → (tilesEnded l tiles)[k]? = some t ∧ (tilesStopped l tiles)[k]? = some t))) ∧
  (∀ (s : State) (i : Nat) (l : Lane),
     let gone (status : Status) (img : ImageStore) : State :=
       let u := landingPass { s with img := img }
       let fewer : List Wave := u.wav.waves.map fun w => if w.num = l.wave then { w with lanes := w.lanes - 1 } else w
       let left : State := { u with wav := { u.wav with waves := fewer.filter fun w => !(w.state == .retired && !w.inUse) } }
       let told : State := if l.dropped = true then left else appendCompletion
         { id := l.id, status := status, mode := l.mode, promoted := l.promoted, origin := l.origin } left
       { told with eng := { told.eng with lanes := s.eng.lanes.set i none } }
     endLane i l s = gone .done { s.img with
       shown := planeCopy s.img.shown s.img.target l.region, tiles := tilesEnded l s.img.tiles } ∧
     stopLane i l s = gone .aborted { s.img with
       shown := if 0 < l.phase then planeCopy s.img.shown s.img.target l.region else s.img.shown,
       tiles := tilesStopped l s.img.tiles }) ∧
  (∀ (s : State),
     let stays (u : State) (kept : List HeldPacket) (p : HeldPacket) : Prop :=
       (∃ k t, u.img.tiles[k]? = some t ∧ p.tiles.holds k = true ∧ t.owner ≠ none) ∨ ∃ q ∈ kept, q.tiles.meets p.tiles = true
     let landed (p : HeldPacket) (u : State) : State := { u with img := { u.img with
       target := planeWrite u.img.target p.rect p.levels,
       tiles := mapTiles (fun k t => if p.tiles.holds k then { t with pending := true } else t) 0 u.img.tiles } }
     let walked := landWalk [] s.img.held s
     (∀ kept, landWalk kept [] s = { s with img := { s.img with held := kept } }) ∧
     (∀ kept p rest, (stays s kept p → landWalk kept (p :: rest) s = landWalk (kept ++ [p]) rest s) ∧
       (¬ stays s kept p → landWalk kept (p :: rest) s = landWalk kept rest (landed p s))) ∧
     walked.img.held.Sublist s.img.held ∧
     (s.img.stall = none → landingPass s = walked) ∧
     (∀ r p, s.img.stall = some (r, p) →
       let fits := (walked.img.held.map fun h => h.payload + 16).sum + (p.payload + 16) ≤ 65536
       let freed (u : State) : State := { u with img := { u.img with stall := none } }
       (¬ stays walked walked.img.held p → landingPass s = respond r .ok [] (landed p (freed walked))) ∧
       (stays walked walked.img.held p → fits → landingPass s = respond r .ok []
         { walked with img := { walked.img with held := walked.img.held ++ [p], stall := none } }) ∧
       (stays walked walked.img.held p → ¬ fits → landingPass s = walked)))

/-- FRAME_BOUNDARY while no lane ends or stops and some lane is occupied: JOINING lanes join, each DRIVING lane is given
its next phase, the supply is ON, the next boundary is a frame away, and planes, tiles and records stay (R44, R45). -/
def Obligations.FrameGivesNextPhase : Prop :=
  ∀ (s : State) (due : Nat), s.eng.boundary = some due →
    (∃ l, some l ∈ s.eng.lanes) → (∀ l, some l ∈ s.eng.lanes → l.state ≠ .stopping ∧ (l.state = .driving → l.phase ≠ l.total)) →
    runs .frameBoundary s { s with
      now := max s.now due,
      eng := { s.eng with
        lanes := s.eng.lanes.map fun x => x.map fun l => { l with state := .driving, phase := l.phase + 1 },
        supply := .on, boundary := some (max s.now due + s.settingNat .framePeriodUs) } }

/-- A look picks nothing while an entry is CLAIMING or the queue is empty, and makes only the demand for a TEMP
conversion while the held reading is not fresh (R37).
The arbiter's look picks the first entry from the head of the queue that is eligible, so none ahead of the pick is;
with no eligible entry it changes nothing. A pick that claims makes the entry CLAIMING and sends its claim; a pick that
ends NO_WAVEFORM or LOW_SUPPLY takes the entry out of the queue with its completion record, and the arbiter looks again.
A claim that a look sends is a decision point (R36, R37, R39, R40, R106). -/
def Obligations.LookRules : Prop :=
  (∀ s : State,
     ((∃ e ∈ s.eng.queue, e.pick ≠ none) → lookPass s = s) ∧
     (s.eng.queue = [] → lookPass s = s) ∧
     (s.eng.queue ≠ [] → (∀ e ∈ s.eng.queue, e.pick = none) → s.fresh? = false → lookPass s = tempDemand s)) ∧
  (∀ s : State,
     (lookPass s = if (look s).sup.waiting.length = s.sup.waiting.length then look s else decisionPass (look s)) ∧
     (s.fresh? = true → (∀ a ∈ s.eng.queue, a.pick = none) →
       (∀ ahead e behind, s.eng.queue = ahead ++ e :: behind → ¬ mayPick s ahead e) → look s = s) ∧
     (∀ (ahead : List QEntry) (e : QEntry) (behind : List QEntry), s.eng.queue = ahead ++ e :: behind →
       mayPick s ahead e → (∀ pre a post, ahead = pre ++ a :: post → ¬ mayPick s pre a) →
       let ended (st : Status) (m : Mode) (promoted : Bool) : State :=
         appendCompletion { id := e.id, status := st, mode := m, promoted := promoted, origin := e.origin }
           { s with eng := { s.eng with queue := s.eng.queue.filter fun a => a.num != e.num } }
       (∀ p : Pick, s.pickOf e = .claims p →
         look s = { s with
           eng := { s.eng with queue := s.eng.queue.map fun a => if a.num = e.num then { a with pick := some p } else a },
           sup := { s.sup with waiting := s.sup.waiting ++ [{ who := .engine, amount := p.tilePart + p.base.getD 0 }] },
           wav := { s.wav with waves := s.wav.waves.map fun w => if w.num = p.wave then { w with claimed := true } else w } }) ∧
       (∀ m promoted, s.pickOf e = .noWaveform m promoted → look s = look (ended .noWaveform m promoted)) ∧
       (∀ m promoted, s.pickOf e = .lowSupply m promoted → look s = look (ended .lowSupply m promoted))))

/-- The pick of an entry: promotion (R38), the waveform of the applied mode at the band in force, none while no band is set
(R39), and the claim (R40).
A granted claim starts a lane: the lowest free lane takes the entry and its pick as JOINING, the entry leaves the queue, its
tiles get the lane as owner, the base it carries becomes the drive base grant, TEXT and SKIM rewrite the target over the region,
and a supply that is OFF begins its start of 3 ms (R42, R43, R44). -/
def Obligations.PickDecidesAndLaneStarts : Prop :=
  (∀ (s : State) (e : QEntry) (m : Mode) (promoted : Bool),
     (promoted = true ↔ e.noPromote = false ∧ ∃ k t, s.img.tiles[k]? = some t ∧ e.tiles.holds k = true ∧
       (t.unsure = true ∨ s.settingNat .residueLimit ≤ t.residue)) →
     (m = if promoted = true then .clear else e.mode) →
     let bounds : Rect := { x0 := 16 * e.tiles.tx0, y0 := 16 * e.tiles.ty0, x1 := 16 * e.tiles.tx1 + 15,
                            y1 := 16 * e.tiles.ty1 + 15 }
     let count := (e.tiles.tx1 - e.tiles.tx0 + 1) * (e.tiles.ty1 - e.tiles.ty0 + 1)
     (s.wav.band = none → s.pickOf e = .noWaveform m promoted) ∧
     (∀ b, s.wav.band = some b →
       (s.slot m b = none → s.pickOf e = .noWaveform m promoted) ∧
       (∀ w, s.slot m b = some w →
         let part := (count * w.current + 999) / 1000
         (s.sup.limit < part + s.settingNat .panelBaseMa → s.pickOf e = .lowSupply m promoted) ∧
         (part + s.settingNat .panelBaseMa ≤ s.sup.limit →
           s.pickOf e = .claims { mode := m, promoted := promoted, region := if promoted = true then bounds else e.region,
                                  wave := w.num, tilePart := part,
                                  base := if s.eng.base = none then some (s.settingNat .panelBaseMa) else none })))) ∧
  (∀ (s : State) (e : QEntry) (p : Pick) (i : Nat), s.claimingEntry = some e → e.pick = some p →
     s.eng.lanes[i]? = some none → (∀ j < i, s.eng.lanes[j]? ≠ some none) →
     let t := startLane s
     t.eng.lanes = s.eng.lanes.set i (some
       { num := e.num, id := e.id, origin := e.origin, region := p.region, tiles := e.tiles, mode := p.mode,
         promoted := p.promoted, wave := p.wave, total := s.wavePhases p.wave, phase := 0, grant := p.tilePart,
         state := .joining, dropped := false }) ∧
     t.eng.queue = s.eng.queue.filter (fun a => a.num != e.num) ∧
     t.eng.base = (if p.base = none then s.eng.base else p.base) ∧
     (∀ k tile, s.img.tiles[k]? = some tile →
       t.img.tiles[k]? = some (if e.tiles.holds k = true then { tile with owner := some i } else tile)) ∧
     t.img.shown = s.img.shown ∧
     (p.mode = .clear ∨ p.mode = .tone → t.img.target = s.img.target) ∧
     (p.mode = .text → t.img.target = planeMap (fun l => 5 * ((l + 2) / 5)) s.img.target p.region) ∧
     (p.mode = .skim → t.img.target =
       planeMap (fun l => if s.settingNat .skimThreshold ≤ l then 15 else 0) s.img.target p.region) ∧
     t.wav.waves = (s.wav.waves.map fun w =>
       if w.num = p.wave then { w with lanes := w.lanes + 1, claimed := false } else w) ∧
     (s.eng.supply = .off → t.eng.supply = .starting ∧ t.eng.boundary = some (s.now + 3000)) ∧
     (s.eng.supply ≠ .off → t.eng.supply = s.eng.supply ∧ t.eng.boundary = s.eng.boundary) ∧
     t.eng.completions = s.eng.completions ∧ t.light = s.light ∧ t.sup = s.sup ∧ t.store = s.store ∧ t.link = s.link ∧
     sameBut { s with img := t.img } t)

/-! ## Fetch channels -/

/-- A credit goes to the first ARMED channel with window room after the last granted, in ACTIVE and DOZE, while page
memory allows one; it takes a FREE slab (R61, R120).
After a credit point no channel qualifies for a credit (R120).
A scheduling point: with the slot empty and not paused, in ACTIVE, DOZE and DRAINING, the first channel after the last given
an operation that has a programmable chunk programs its lowest such chunk, which becomes WRITING; without one the first that
qualifies erases its cursor's sector; the operation joins the store's queue and the store selects. Otherwise the store
selects alone (R126, R136, R137, R139).
An offer to an OFFLINE store ends FAULT in the event, which fails its channel with its chunk WRITING, and the choice is made
again among the rest (R125, R126, R145).
The outcome of the slot's operation: the slot empties, and is paused after LOW_SUPPLY. Of an ARMED channel, an erase moves the
cursor, takes its one retry or fails the channel; a program stores its chunk, takes its one retry, waits again or fails the
channel. A stored chunk frees its slab, moves the prefix, records PREFIX_REACHED once, and the last one makes the channel FINISHED
with a forced notice. An outcome to be ignored changes nothing more (R125 to R130; that the progress trigger comes before FINISHED's is the model's
choice, log 58). -/
def Obligations.CreditsGoRound : Prop :=
  (∀ (s : State) (c : Nat), s.creditTaker = some c →
     (s.pow.state = .active ∨ s.pow.state = .doze) ∧
     1 ≤ s.freeCount - (s.settingNat .cacheFloor - s.cacheHeld) ∧
     c < 4 ∧ (s.channel c).state = .armed ∧ s.credits c < s.windowWants c ∧
     (∀ d ∈ (channelsAfter s.fetch.lastGranted).takeWhile (fun d => d != c),
       ¬ ((s.channel d).state = .armed ∧ s.credits d < s.windowWants d)) ∧
     (grantCredit c s).credits c = s.credits c + 1 ∧ (grantCredit c s).freeCount = s.freeCount - 1 ∧
     (grantCredit c s).fetch.lastGranted = c) ∧
  (∀ s : State, s.pool.length = 240 → (creditPoint s).creditTaker = none) ∧
  (∀ s : State,
     let may := s.fetch.slot = none ∧ s.fetch.paused = false ∧ s.pow.state.awake = true
     let offered (c : Nat) (chunk : Option Nat) (k : OpKind) (f : Channel → Channel) : State := { s with
       fetch := { s.fetch with channels := s.fetch.channels.modify c f, lastGiven := c,
                               slot := some { channel := c, chunk := chunk, ignored := false } },
       store := { s.store with queue := s.store.queue ++ [{ source := .fetch, kind := k, arrival := s.store.nextArrival }],
                               nextArrival := s.store.nextArrival + 1 } }
     ((¬ may ∨ ∀ c < 4, (∀ i, ¬ programReady s c i) ∧ ¬ eraseReady s c) → schedulePoint s = selectPoint s) ∧
     (may → s.store.flash ≠ .offline → ∀ (before : List Nat) (c : Nat) (behind : List Nat),
       channelsAfter s.fetch.lastGiven = before ++ c :: behind →
       (∀ i m, programReady s c i → (s.channel c).manifest = some m → (∀ j < i, ¬ programReady s c j) →
         (∀ d ∈ before, ∀ j, ¬ programReady s d j) →
         schedulePoint s = selectPoint (offered c (some i)
           (.program (m.base + i * (m.chunkKiB * 1024)) ((s.channel c).chunk i).payload) fun ch =>
             { ch with chunks := ch.chunks.modify i fun k => { k with state := .writing } })) ∧
       (eraseReady s c → (∀ d < 4, ∀ j, ¬ programReady s d j) → (∀ d ∈ before, ¬ eraseReady s d) →
         schedulePoint s = selectPoint (offered c none (.erase (s.channel c).cursor) id)))) ∧
  (∀ s : State, s.store.flash = .offline → s.fetch.slot = none → s.fetch.paused = false → s.pow.state.awake = true →
     ∀ (before : List Nat) (c : Nat) (behind : List Nat), channelsAfter s.fetch.lastGiven = before ++ c :: behind →
       let failed (f : Channel → Channel) : State := failCore c .storeFault { s with fetch := { s.fetch with
         channels := s.fetch.channels.modify c f, lastGiven := c } }
       (∀ i, programReady s c i → (∀ j < i, ¬ programReady s c j) → (∀ d ∈ before, ∀ j, ¬ programReady s d j) →
         schedulePoint s = schedulePoint (failed fun ch =>
           { ch with chunks := ch.chunks.modify i fun k => { k with state := .writing } })) ∧
       (eraseReady s c → (∀ d < 4, ∀ j, ¬ programReady s d j) → (∀ d ∈ before, ¬ eraseReady s d) →
         schedulePoint s = schedulePoint (failed id))) ∧
  (∀ (s : State) (o : SlotOp) (e : OpEnd), s.fetch.slot = some o →
     let c := o.channel
     let ch := s.channel c
     let empty (f : Channel → Channel) : State := { s with fetch := { s.fetch with
       slot := none, paused := s.fetch.paused || e == .lowSupply, channels := s.fetch.channels.modify c f } }
     (o.ignored = true → fetchOutcome e s = empty id) ∧
     (o.ignored = false → ch.state ≠ .armed → fetchOutcome e s = closingCheck c (empty id)) ∧
     (o.ignored = false → ch.state = .armed → o.chunk = none →
       (e = .ok → fetchOutcome e s = empty fun ch => { ch with cursor := ch.cursor + 1, eraseRetry := false }) ∧
       (e = .timeout → ch.eraseRetry = false → fetchOutcome e s = empty fun ch => { ch with eraseRetry := true }) ∧
       (e = .fault ∨ (e = .timeout ∧ ch.eraseRetry = true) → fetchOutcome e s = failCore c .storeFault (empty id)) ∧
       (e = .lowSupply → fetchOutcome e s = empty id)) ∧
     (∀ i, o.ignored = false → ch.state = .armed → o.chunk = some i →
       (e = .timeout → (ch.chunk i).retry = false → fetchOutcome e s = empty fun ch =>
         { ch with chunks := ch.chunks.modify i fun k => { k with state := .staged, retry := true } }) ∧
       (e = .fault ∨ (e = .timeout ∧ (ch.chunk i).retry = true) →
         fetchOutcome e s = failCore c .storeFault (empty id)) ∧
       (e = .lowSupply → fetchOutcome e s = empty fun ch =>
         { ch with chunks := ch.chunks.modify i fun k => { k with state := .staged } }) ∧
       (e = .ok → ∀ m, ch.manifest = some m →
         let chunks := ch.chunks.modify i fun k => { k with state := .stored, payload := [] }
         let pfx := leadingStored chunks
         let hit : Bool := decide (0 < m.mark) && !ch.reached && decide (m.mark ≤ pfx)
         let stored : Channel := { ch with chunks := chunks, stored := ch.stored + 1, pfx := pfx, reached := ch.reached || hit,
                                           events := if hit = true then ch.events ||| 1 else ch.events }
         let u := moderatedTrigger .fetch
           { empty fun _ => stored with pool := s.pool.map fun h => if h = .chunk c i then .free else h }
         (ch.stored + 1 ≠ m.count → fetchOutcome e s = creditPoint u) ∧
         (ch.stored + 1 = m.count → fetchOutcome e s = creditPoint (forcedTrigger .fetch { u with fetch := { u.fetch with
           channels := u.fetch.channels.modify c fun ch => { ch with state := .finished, events := ch.events ||| 2 } } })))))

/-- FETCH_OPEN is refused by the checks of R114 in order; an accepted one makes the channel LOADING with its manifest,
every sum unloaded, every chunk MISSING and the erase cursor at the first sector, and changes no other channel (R112, R114).
The channel's recorded events stay: R114 does not name them (the model's reading, log 33). -/
def Obligations.FetchOpenLoadsManifest : Prop :=
  ∀ (s : State) (r : Request), s.taken .fetchOpen = some r →
    let b := r.body
    let c := byteAt b 0
    let kib := byteAt b 1
    let window := byteAt b 2
    let len := nat32At b 3
    let base := nat32At b 7
    let mark := nat16At b 11
    let count := (len + kib * 1024 - 1) / (kib * 1024)
    let fields := (1 ≤ len ∧ len ≤ 268435456 ∧ kib ∈ [4, 8, 16, 32, 64] ∧ base % 131072 = 0 ∧ count ≤ 4096 ∧
      1 ≤ window ∧ window ≤ 64 ∧ mark ≤ count) ∧ base + len ≤ 536870912
    let apart := ∀ ch ∈ s.fetch.channels, ch.state ≠ .closed → ∀ q, ch.manifest = some q →
      (base + len - 1) / 131072 < q.base / 131072 ∨ (q.base + q.length - 1) / 131072 < base / 131072
    (3 < c → runs .fetchOpen s (refusedWith .fetchOpen r .range s)) ∧
    (c ≤ 3 → (s.channel c).state ≠ .closed → runs .fetchOpen s (refusedWith .fetchOpen r .state s)) ∧
    (c ≤ 3 → (s.channel c).state = .closed →
      (¬ fields → runs .fetchOpen s (refusedWith .fetchOpen r .range s)) ∧
      (fields → base / 131072 < 8 → runs .fetchOpen s (refusedWith .fetchOpen r .shielded s)) ∧
      (fields → 8 ≤ base / 131072 → ¬ apart → runs .fetchOpen s (refusedWith .fetchOpen r .inUse s)) ∧
      (fields → 8 ≤ base / 131072 → apart →
        runs .fetchOpen s (replied .fetchOpen r .ok [] { took .fetch s with fetch := { s.fetch with
          channels := s.fetch.channels.modify c fun ch =>
            { state := .loading,
              manifest := some { length := len, chunkKiB := kib, count := count, base := base, window := window,
                                 mark := mark, sums := List.replicate count none },
              chunks := List.replicate count { state := .missing, bad := 0, retry := false, payload := [] },
              pfx := 0, stored := 0, refetch := [], cursor := base / 131072, eraseRetry := false, noCredit := 0,
              outOfWindow := 0, duplicate := 0, reason := none, reached := false, events := ch.events } } })))

/-- FETCH_SUMS loads sums and marks them loaded, or is refused and loads nothing (R115); FETCH_ARM arms a channel whose every
sum is loaded, which is a credit point and a scheduling point (R116; that the response of FETCH_ARM comes before the notices of
both points is the model's choice, log 38). -/
def Obligations.FetchSumsThenArm : Prop :=
  (∀ (s : State) (r : Request), s.taken .fetchSums = some r →
    (3 < byteAt r.body 0 → runs .fetchSums s (refusedWith .fetchSums r .range s)) ∧
    (byteAt r.body 0 ≤ 3 → (s.channel (byteAt r.body 0)).state ≠ .loading →
      runs .fetchSums s (refusedWith .fetchSums r .state s))) ∧
  (∀ (s : State) (r : Request) (m : Manifest), s.taken .fetchSums = some r → byteAt r.body 0 ≤ 3 →
    (s.channel (byteAt r.body 0)).manifest = some m → (s.channel (byteAt r.body 0)).state = .loading →
    let sums := words32 (r.body.drop 3)
    let first := nat16At r.body 1
    (sums = [] ∨ 1024 < sums.length → runs .fetchSums s (refusedWith .fetchSums r .length s)) ∧
    (sums ≠ [] → sums.length ≤ 1024 → m.count < first + sums.length →
      runs .fetchSums s (refusedWith .fetchSums r .range s)) ∧
    (sums ≠ [] → sums.length ≤ 1024 → first + sums.length ≤ m.count →
      runs .fetchSums s (replied .fetchSums r .ok [] { took .fetch s with fetch := { s.fetch with
        channels := s.fetch.channels.modify (byteAt r.body 0) fun ch => { ch with manifest := some { m with
          sums := m.sums.take first ++ sums.map some ++ m.sums.drop (first + sums.length) } } } }))) ∧
  (∀ (s : State) (r : Request), s.taken .fetchArm = some r →
    let c := byteAt r.body 0
    (3 < c → runs .fetchArm s (refusedWith .fetchArm r .range s)) ∧
    (c ≤ 3 → (s.channel c).state ≠ .loading → runs .fetchArm s (refusedWith .fetchArm r .state s)) ∧
    (c ≤ 3 → (s.channel c).state = .loading → (s.channel c).allLoaded = false →
      runs .fetchArm s (refusedWith .fetchArm r .range s)) ∧
    (c ≤ 3 → (s.channel c).state = .loading → (s.channel c).allLoaded = true →
      runs .fetchArm s (schedulePoint (creditPoint (replied .fetchArm r .ok [] { took .fetch s with
        fetch := { s.fetch with channels := s.fetch.channels.modify c fun ch => { ch with state := .armed } } })))))

/-- FETCH_CLOSE by the channel's state (R117), and FETCH_STATUS, which changes nothing (R118); a channel above 3 is refused RANGE.
That the response of a close comes after the FETCH notice (log 38), and that an operation whose outcome is ignored does not hold a
channel CLOSING (log 13), are the model's choice.
A closed channel gives up every slab, its manifest, chunk states and refetch list, and keeps its counts, prefix, cursor
and failure reason; CLOSED is recorded (R117, R130).
When a CLOSING channel closes: it becomes CLOSED with no frame of its own in reception and no store operation of its own in
flight, and is else left as it is, as is a channel that is not CLOSING. Becoming CLOSED records the event, forces the FETCH notice
and is a credit point (R117, R120, R130; that an operation whose outcome is ignored is not counted is the model's choice,
log 13). -/
def Obligations.FetchCloseAndStatus : Prop :=
  ((∀ (s : State) (r : Request), s.taken .fetchClose = some r → 3 < byteAt r.body 0 →
     runs .fetchClose s (refusedWith .fetchClose r .range s)) ∧
   (∀ (s : State) (r : Request), s.taken .fetchClose = some r → byteAt r.body 0 ≤ 3 →
     let c := byteAt r.body 0
     ((s.channel c).state = .closed → runs .fetchClose s (refusedWith .fetchClose r .state s)) ∧
     ((s.channel c).state = .closing → runs .fetchClose s (replied .fetchClose r .ok [] (took .fetch s))) ∧
     (((s.channel c).state = .loading ∨ (s.channel c).state = .finished ∨ (s.channel c).state = .failed) →
       runs .fetchClose s (replied .fetchClose r .ok [] (becomeClosed c (took .fetch s)))) ∧
     ((s.channel c).state = .armed → c < s.fetch.channels.length →
       (s.inReception c = true ∨ s.ownInFlight c = true) →
       runs .fetchClose s (replied .fetchClose r .ok [] (creditPoint { took .fetch s with
         pool := s.pool.map fun h => if h = .credit c then .free else h,
         fetch := { s.fetch with channels := s.fetch.channels.modify c fun ch => { ch with state := .closing } } }))) ∧
     ((s.channel c).state = .armed → c < s.fetch.channels.length → s.inReception c = false → s.ownInFlight c = false →
       runs .fetchClose s (replied .fetchClose r .ok [] (creditPoint (becomeClosed c { took .fetch s with
         pool := s.pool.map fun h => if h = .credit c then .free else h,
         fetch := { s.fetch with channels := s.fetch.channels.modify c fun ch => { ch with state := .closing } } }))))) ∧
   (∀ (s : State) (r : Request), s.taken .fetchStatus = some r →
     (3 < byteAt r.body 0 → runs .fetchStatus s (refusedWith .fetchStatus r .range s)) ∧
     (byteAt r.body 0 ≤ 3 →
       runs .fetchStatus s (replied .fetchStatus r .ok (s.fetchStatusBody (byteAt r.body 0)) (took .fetch s))))) ∧
  (∀ (s : State) (c : Nat), c < s.fetch.channels.length → s.pool.length = 240 →
     let t := becomeClosed c s
     t.channel c = { s.channel c with state := .closed, manifest := none, chunks := [], refetch := [], eraseRetry := false,
                                      events := (s.channel c).events ||| 8 } ∧
     (∀ h ∈ t.pool, h.ofChannel c = false) ∧ (∀ d, d ≠ c → t.channel d = s.channel d) ∧ t.store = s.store ∧
     t.content = s.content ∧ t.cache = s.cache) ∧
  (∀ (s : State) (c : Nat),
     let framed := ∃ f, s.fetch.reception = some f ∧ f.channel = c
     let operated := ∃ o, s.fetch.slot = some o ∧ o.channel = c ∧ o.ignored = false
     ((s.channel c).state = .closing → ¬ framed → ¬ operated → closingCheck c s = becomeClosed c s) ∧
     (((s.channel c).state ≠ .closing ∨ framed ∨ operated) → closingCheck c s = s) ∧
     becomeClosed c s = creditPoint (forcedTrigger .fetch { s with
       pool := s.pool.map fun h => if h.ofChannel c then .free else h,
       fetch := { s.fetch with channels := s.fetch.channels.modify c fun ch => { ch with
         state := .closed, manifest := none, chunks := [], refetch := [], eraseRetry := false, events := ch.events ||| 8 } } }))

/-- A CHUNK write's header: the six checks in order with their drop counts, and a frame that passes consumes one credit, whose
slab becomes the chunk's, and is in reception (R122). A header while the port is closed or a frame is in reception changes
nothing (the model's choice, logs 2 and 28). -/
def Obligations.ChunkHeaderChecks : Prop :=
  (∀ (s : State) (h : List Byte), s.pow.state.awake = false ∨ s.fetch.reception ≠ none → runs (.chunkHeader h) s s) ∧
  ∀ (s : State) (h : List Byte), s.pow.state.awake = true → s.fetch.reception = none →
    let c := byteAt h 0
    let i := nat16At h 1
    let ch := s.channel c
    let bad := crc16 (h.take 7) ≠ BitVec.ofNat 16 (nat16At h 7) ∨ 3 < c ∨ ch.state ≠ .armed
    let bumped (f : Channel → Channel) : State := { s with fetch := { s.fetch with channels := s.fetch.channels.modify c f } }
    (bad → runs (.chunkHeader h) s s) ∧
    (¬ bad → s.credits c = 0 →
      runs (.chunkHeader h) s (bumped fun ch => { ch with noCredit := min 65535 (ch.noCredit + 1) })) ∧
    (¬ bad → s.credits c ≠ 0 → ch.inWindow i = false →
      runs (.chunkHeader h) s (bumped fun ch => { ch with outOfWindow := min 65535 (ch.outOfWindow + 1) })) ∧
    (¬ bad → s.credits c ≠ 0 → ch.inWindow i = true →
      ((ch.chunk i).state = .staged ∨ (ch.chunk i).state = .writing ∨ (ch.chunk i).state = .stored) →
      runs (.chunkHeader h) s (bumped fun ch => { ch with duplicate := min 65535 (ch.duplicate + 1) })) ∧
    (¬ bad → s.credits c ≠ 0 → ch.inWindow i = true → ((ch.chunk i).state = .missing ∨ (ch.chunk i).state = .bad) →
      nat32At h 3 ≠ ch.expected i →
      runs (.chunkHeader h) s (foundBad c i { s with pool := passSlab (.credit c) .free s.pool })) ∧
    (¬ bad → s.credits c ≠ 0 → ch.inWindow i = true → ((ch.chunk i).state = .missing ∨ (ch.chunk i).state = .bad) →
      nat32At h 3 = ch.expected i →
      runs (.chunkHeader h) s (creditPoint { s with
        pool := passSlab (.credit c) (.chunk c i) s.pool,
        fetch := { s.fetch with reception := some { channel := c, index := i, length := nat32At h 3 } } }))

/-- A frame ends: a matching payload of an ARMED channel is STAGED and leaves the refetch list, which is a scheduling
point; a short or mismatching one frees its slab and is found BAD; of a channel no longer ARMED nothing is
checked, and a CLOSING one with no operation of its own in flight becomes CLOSED (R117,
R123).
A chunk found BAD: it becomes BAD and its bad count rises by 1; its third mismatch fails the channel REPEATED_BAD, an index
already listed keeps its place, a full refetch list fails the channel REFETCH_FULL, and otherwise the index joins the list's
tail; without a failure it is a credit point (R124).
A channel fails: it becomes FAILED with its reason, its credits and chunk slabs pass to FREE, a frame of its own leaves
reception, FAILED is recorded and forces a FETCH notice, its store operation is cut, and it is a credit point and a scheduling
point; the chunk states stay (R125, R126, R130; the last is the model's reading, log 11). The cut: a program in the queue or
claiming ends and empties the slot, one at the flash begins no further page, and an erase stays; an outcome still to come is
ignored (R137; of an erase in the queue the model's choice, log 12). -/
def Obligations.ChunkFrameEnds : Prop :=
  (∀ (s : State) (f : Reception) (p : List Byte), s.fetch.reception = some f →
     let u : State := { s with fetch := { s.fetch with reception := none } }
     let good := f.length ≤ p.length ∧ some (crc32 (p.take f.length)) = (s.channel f.channel).sumOf f.index
     ((s.channel f.channel).state = .armed → good →
       runs (.chunkFrameEnd p) s (schedulePoint { u with fetch := { u.fetch with
         channels := s.fetch.channels.modify f.channel fun ch =>
           { ch with chunks := ch.chunks.modify f.index fun k =>
                       { k with state := .staged, payload := p.take f.length },
                     refetch := ch.refetch.filter fun i => i != f.index } } })) ∧
     ((s.channel f.channel).state = .armed → ¬ good →
       runs (.chunkFrameEnd p) s (foundBad f.channel f.index
         { u with pool := s.pool.map fun h => if h = .chunk f.channel f.index then .free else h })) ∧
     (let operated := ∃ o, s.fetch.slot = some o ∧ o.channel = f.channel ∧ o.ignored = false
      ((s.channel f.channel).state = .closing → ¬ operated → runs (.chunkFrameEnd p) s (becomeClosed f.channel u)) ∧
      ((s.channel f.channel).state = .closing → operated → runs (.chunkFrameEnd p) s u) ∧
      ((s.channel f.channel).state ≠ .armed → (s.channel f.channel).state ≠ .closing → runs (.chunkFrameEnd p) s u))) ∧
  (∀ (s : State) (c i : Nat),
     let ch := s.channel c
     let found (refetch : List Nat → List Nat) : State := { s with fetch := { s.fetch with
       channels := s.fetch.channels.modify c fun ch =>
         { ch with chunks := ch.chunks.modify i fun k => { k with state := .bad, bad := k.bad + 1, payload := [] },
                   refetch := refetch ch.refetch } } }
     (2 ≤ (ch.chunk i).bad → foundBad c i s = failChannel c .repeatedBad (found id)) ∧
     ((ch.chunk i).bad < 2 → i ∈ ch.refetch → foundBad c i s = creditPoint (found id)) ∧
     ((ch.chunk i).bad < 2 → i ∉ ch.refetch → 16 ≤ ch.refetch.length →
       foundBad c i s = failChannel c .refetchFull (found id)) ∧
     ((ch.chunk i).bad < 2 → i ∉ ch.refetch → ch.refetch.length < 16 →
       foundBad c i s = creditPoint (found fun l => l ++ [i]))) ∧
  ((∀ (s : State) (c : Nat) (r : FailReason),
      let mine : Bool := match s.fetch.reception with
        | some f => f.channel == c
        | none => false
      failChannel c r s = schedulePoint (cutOp c (creditPoint (forcedTrigger .fetch { s with
        pool := s.pool.map fun h => if h.ofChannel c then .free else h,
        fetch := { s.fetch with
          channels := s.fetch.channels.modify c fun ch =>
            { ch with state := .failed, reason := some r, events := ch.events ||| 4,
                      chunks := ch.chunks.map fun k => { k with payload := [] } },
          reception := if mine = true then none else s.fetch.reception } })))) ∧
   (∀ (s : State) (c : Nat), (∀ o, s.fetch.slot = some o → o.channel ≠ c ∨ o.ignored = true) → cutOp c s = s) ∧
   (∀ (s : State) (o : SlotOp), s.fetch.slot = some o → o.ignored = false →
      let ignoring : State := { s with fetch := { s.fetch with slot := some { o with ignored := true } } }
      let emptied : State := { s with fetch := { s.fetch with slot := none } }
      let queued := ∃ q ∈ s.store.queue, q.source = .fetch
      (o.chunk = none → cutOp o.channel s = ignoring) ∧
      (∀ i, o.chunk = some i →
        (queued → cutOp o.channel s =
          { emptied with store := { s.store with queue := s.store.queue.filter fun q => q.source != .fetch } }) ∧
        (¬ queued → s.store.flash = .claiming → cutOp o.channel s = decisionPass { emptied with
          store := { s.store with flash := .idle, op := none },
          sup := { s.sup with waiting := s.sup.waiting.filter fun w => w.who != .store } }) ∧
        (¬ queued → s.store.flash ≠ .claiming →
          cutOp o.channel s = { ignoring with store := { s.store with cut := true } }))))

/-- The radio port's two reads change no state but what was last sent, and send nothing while the port is closed (R121).
The bytes of a transfer spell its command: on the page link 0x01 a write of the bytes that follow, 0x02 a read, another first
byte an unknown transfer; on the radio port 0x11 a STATUS read, 0x12 and a channel a REFETCH read, 0x13 and nine bytes a chunk
header, and nothing else a command (R121, R163, R176). -/
def Obligations.RadioReadsChangeNothing : Prop :=
  (∀ s : State,
     (s.pow.state.awake = true →
       runs .statusRead s { s with lastRadio := s.radioStatusBytes } ∧
       ∀ c : Byte, runs (.refetchRead c) s { s with lastRadio := s.refetchBytes c.toNat }) ∧
     (s.pow.state.awake = false →
       runs .statusRead s { s with lastRadio := [] } ∧ ∀ c : Byte, runs (.refetchRead c) s { s with lastRadio := [] })) ∧
  ((∀ (f : Byte) (rest : List Byte),
     (f = 0x01 → linkCommand (f :: rest) = some (.writeTransfer rest)) ∧
     (f = 0x02 → linkCommand (f :: rest) = some .readTransfer) ∧
     (f ≠ 0x01 → f ≠ 0x02 → linkCommand (f :: rest) = some .unknownTransfer) ∧
     (f = 0x11 → radioCommand (f :: rest) = some .statusRead) ∧
     (f = 0x12 → radioCommand (f :: rest) = (match rest with | [] => none | c :: _ => some (.refetchRead c))) ∧
     (f = 0x13 → 9 ≤ rest.length → radioCommand (f :: rest) = some (.chunkHeader (rest.take 9))) ∧
     (f = 0x13 → rest.length < 9 → radioCommand (f :: rest) = none) ∧
     (f ≠ 0x11 → f ≠ 0x12 → f ≠ 0x13 → radioCommand (f :: rest) = none)) ∧
   linkCommand [] = none ∧ radioCommand [] = none)

/-! ## Book store -/

/-- Programs AND, erases set, and neither touches another byte (R133).
What a TIMEOUT and a FAULT leave of the content (R133): of an erase's sector every byte is a free value; of the page in hand of a
program a FAULT leaves free values, and a TIMEOUT takes from each byte some of the bits its data clears and no other (that a
failed page's every bit is free is the model's choice, and the other its reading, log 7; free values, log 6); every other byte is
as before, and a READ leaves all. -/
def Obligations.ProgramAndsEraseSets : Prop :=
  (∀ (m : Memory) (a : Nat) (bs : List Byte) (x : Nat), memWf m = true →
     (∀ i, i < bs.length → memRead (memProgram m a bs) (a + i) = memRead m (a + i) &&& bs.getD i 0) ∧
     (x < a ∨ a + bs.length ≤ x → memRead (memProgram m a bs) x = memRead m x) ∧
     (∀ n, a ≤ x → x < a + n → memRead (memErase m a n) x = 0xFF) ∧
     (∀ n, (x < a ∨ a + n ≤ x) → memRead (memErase m a n) x = memRead m x)) ∧
  (∀ (s : State) (src : OpSource) (arr : Nat),
     (∀ a n, timeoutContent ⟨src, .read a n, arr⟩ s = s ∧ faultContent ⟨src, .read a n, arr⟩ s = s) ∧
     (∀ sec, ∃ m : Memory,
       let t : State := { s with content := m, fresh := s.fresh + 131072 }
       timeoutContent ⟨src, .erase sec, arr⟩ s = t ∧ faultContent ⟨src, .erase sec, arr⟩ s = t ∧
       (∀ i < 131072, memRead m (sec * 131072 + i) = Config.freeByte (s.fresh + i)) ∧
       ∀ x, x < sec * 131072 ∨ (sec + 1) * 131072 ≤ x → memRead m x = memRead s.content x) ∧
     (∀ a d, ∃ m n : Memory,
       let first := a + s.store.page * 4096
       let page := (d.drop (s.store.page * 4096)).take 4096
       timeoutContent ⟨src, .program a d, arr⟩ s = { s with content := m, fresh := s.fresh + page.length } ∧
       faultContent ⟨src, .program a d, arr⟩ s = { s with content := n, fresh := s.fresh + page.length } ∧
       (∀ i < page.length,
         memRead m (first + i) = memRead s.content (first + i) &&& (Config.freeByte (s.fresh + i) ||| page.getD i 0) ∧
         memRead n (first + i) = Config.freeByte (s.fresh + i)) ∧
       ∀ x, x < first ∨ first + page.length ≤ x →
         memRead m x = memRead s.content x ∧ memRead n x = memRead s.content x))

/-- STORE_READ, STORE_PROGRAM and STORE_ERASE: the checks of R135 in order, FAULT from an OFFLINE store, and otherwise the
operation joins the queue's tail, where a READ may suspend an erase and an idle store selects (R135, R136, R139, R142). -/
def Obligations.StoreRequestsJoinQueue : Prop :=
  (∀ (s : State) (r : Request), s.taken .storeRead = some r →
    let a := nat32At r.body 0
    let n := nat16At r.body 4
    let legal := 1 ≤ n ∧ n ≤ 4096 ∧ a + n ≤ 536870912
    (¬ legal → runs .storeRead s (refusedWith .storeRead r .range s)) ∧
    (legal → s.store.flash = .offline → runs .storeRead s (refusedWith .storeRead r .fault s)) ∧
    (legal → s.store.flash ≠ .offline → runs .storeRead s (hostJoins r (.read a n) (took .store s)))) ∧
  (∀ (s : State) (r : Request), s.taken .storeProgram = some r →
    let a := nat32At r.body 0
    let d := r.body.drop 4
    let sized := 1 ≤ d.length ∧ d.length ≤ 4096
    let placed := a + d.length ≤ 536870912 ∧ a / 4096 = (a + d.length - 1) / 4096
    (¬ sized → runs .storeProgram s (refusedWith .storeProgram r .length s)) ∧
    (sized → ¬ placed → runs .storeProgram s (refusedWith .storeProgram r .range s)) ∧
    (sized → placed → s.store.bootProtected = true → a < 1048576 →
      runs .storeProgram s (refusedWith .storeProgram r .shielded s)) ∧
    (sized → placed → (s.store.bootProtected = false ∨ 1048576 ≤ a) → s.sectorInUse (a / 131072) = true →
      runs .storeProgram s (refusedWith .storeProgram r .inUse s)) ∧
    (sized → placed → (s.store.bootProtected = false ∨ 1048576 ≤ a) → s.sectorInUse (a / 131072) = false →
      runs .storeProgram s (if s.store.flash = .offline then refusedWith .storeProgram r .fault s
        else hostJoins r (.program a d) (took .store s)))) ∧
  (∀ (s : State) (r : Request), s.taken .storeErase = some r →
    let sec := nat16At r.body 0
    (4095 < sec → runs .storeErase s (refusedWith .storeErase r .range s)) ∧
    (sec ≤ 4095 → s.store.bootProtected = true → sec < 8 → runs .storeErase s (refusedWith .storeErase r .shielded s)) ∧
    (sec ≤ 4095 → (s.store.bootProtected = false ∨ 8 ≤ sec) → s.sectorInUse sec = true →
      runs .storeErase s (refusedWith .storeErase r .inUse s)) ∧
    (sec ≤ 4095 → (s.store.bootProtected = false ∨ 8 ≤ sec) → s.sectorInUse sec = false →
      runs .storeErase s (if s.store.flash = .offline then refusedWith .storeErase r .fault s
        else hostJoins r (.erase sec) (took .store s))))

/-- A joining host operation stands at the tail of the queue with the next arrival number. On an IDLE store the store then selects.
On a busy one nothing else changes, but that a READ joining while an ERASE is RUNNING makes the suspend test: with a READ that is
not blocked, the least running time passed and suspends to spare, the erase is being suspended (R136, R139, R142).
An unblocked READ is selected before anything else, the oldest first; otherwise the head of the queue (R139).
A selection point: nothing happens while the store is not IDLE or its queue is empty. Otherwise the selected operation leaves
the queue; if its claim, read now from the setting of its kind, exceeds the whole limit it ends LOW_SUPPLY and the store selects
again, and if not the store is CLAIMING and its claim arrives, which is a decision point (R105, R139, R140). -/
def Obligations.StoreQueueOrder : Prop :=
  (∀ (s : State) (r : Request) (k : OpKind),
     let joined : State := { s with store := { s.store with
       queue := s.store.queue ++ [{ source := .host r, kind := k, arrival := s.store.nextArrival }],
       nextArrival := s.store.nextArrival + 1 } }
     let reads := ∃ a n, k = .read a n
     let erasing := s.store.flash = .running ∧ ∃ o sec, s.store.op = some o ∧ o.kind = .erase sec
     let passes := (∃ p ∈ joined.store.queue, joined.servable p = true) ∧
       s.settingNat .eraseMinRunUs ≤ s.now - s.store.since ∧ s.store.suspends < s.settingNat .suspendLimit
     (s.store.flash = .idle → hostJoins r k s = selectPoint joined) ∧
     (s.store.flash ≠ .idle → ¬ (reads ∧ erasing ∧ passes) → hostJoins r k s = joined) ∧
     (reads → erasing → passes → hostJoins r k s = { joined with store := { joined.store with
       flash := .suspending, suspends := s.store.suspends + 1, commanded := s.now } })) ∧
  (∀ (s : State) (o : Op), s.selected = some o →
     o ∈ s.store.queue ∧
     ((∃ p ∈ s.store.queue, s.servable p = true) →
       s.servable o = true ∧ ∃ older newer, s.store.queue = older ++ o :: newer ∧ ∀ p ∈ older, s.servable p = false) ∧
     ((∀ p ∈ s.store.queue, s.servable p = false) → s.store.queue.head? = some o)) ∧
  (∀ s : State,
     (s.store.flash ≠ .idle ∨ s.store.queue = [] → selectPoint s = s) ∧
     (∀ o : Op, s.store.flash = .idle → s.selected = some o →
       let claim : Nat := match o.kind with
         | .read _ _ => s.settingNat .storeReadMa
         | .program _ _ => s.settingNat .storeProgramMa
         | .erase _ => s.settingNat .storeEraseMa
       let left : List Op := s.store.queue.filter fun p => p.arrival != o.arrival
       let ended : State := { s with store := { s.store with queue := left } }
       (s.sup.limit < claim →
         (∀ r, o.source = .host r → selectPoint s = selectPoint (respond r .lowSupply [] ended)) ∧
         (o.source = .fetch → selectPoint s = selectPoint (fetchOutcome .lowSupply ended))) ∧
       (claim ≤ s.sup.limit → selectPoint s = decisionPass { s with
         store := { s.store with queue := left, flash := .claiming, op := some o },
         sup := { s.sup with waiting := s.sup.waiting ++ [{ who := .store, amount := claim }] } })))

/-- Each report of the flash. A READ done ends OK with its bytes, a boot read's going to power control. A PROGRAM's page done
ANDs the page in; then the next page begins, or the operation ends OK at its last page or when it is cut. An ERASE done, while
RUNNING or SUSPENDING, sets its sector to 0xFF and ends OK. A failure ends FAULT, and the sector, or what the page was writing,
is unknown throughout (free values; that this is so of a failed page's every bit is the model's choice, logs 6 and 7). At each
end the grant is released, the store is IDLE and the outcome goes to the source. A batch's READ done is answered OK with no
grant released; after the last the erase is RUNNING again, its min-run interval new (R108, R133, R137, R141, R143, R160). That
the host's response comes after the notices of the released grant's decision pass is the model's choice (log 38). -/
def Obligations.FlashReportsEndOk : Prop :=
  ∀ (s : State) (src : OpSource) (arr : Nat),
    let bytes (a n : Nat) : List Byte := (List.range n).map fun i => memRead s.content (a + i)
    let idle (u : State) : State :=
      let freed : State := { u with store := { u.store with
        flash := .idle, op := none, grant := none, page := 0, cut := false, suspends := 0, ran := 0, since := u.now } }
      if u.store.grant = none then freed else decisionPass freed
    let unknown (a n : Nat) : State :=
      { s with content := memWrite s.content a (freeBytes s.fresh n), fresh := s.fresh + n }
    (∀ a n, s.store.flash = .running → s.store.op = some { source := src, kind := .read a n, arrival := arr } →
      (src ≠ .boot → runs .flashReadDone s (reported src .ok (bytes a n) (idle s))) ∧
      (src = .boot → runs .flashReadDone s (bootReadDone (bytes a n) (idle s)))) ∧
    (∀ a d, s.store.flash = .running → s.store.op = some { source := src, kind := .program a d, arrival := arr } →
      let page := s.store.page
      let piece := (d.drop (page * 4096)).take 4096
      let done : State := { s with content := memProgram s.content (a + page * 4096) piece }
      ((page + 1) * 4096 < d.length → s.store.cut = false →
        runs .flashPageDone s { done with store := { s.store with page := page + 1, ran := 0, since := s.now } }) ∧
      ((d.length ≤ (page + 1) * 4096 ∨ s.store.cut = true) →
        runs .flashPageDone s (reported src .ok [] (idle done))) ∧
      runs .flashFailure s (reported src .fault [] (idle (unknown (a + page * 4096) piece.length)))) ∧
    (∀ sec, s.store.flash = .running ∨ s.store.flash = .suspending →
      s.store.op = some { source := src, kind := .erase sec, arrival := arr } →
      runs .flashEraseDone s (reported src .ok []
        (idle { s with content := memErase s.content (sec * 131072) 131072 })) ∧
      runs .flashFailure s (reported src .fault [] (idle (unknown (sec * 131072) 131072)))) ∧
    (∀ r a n rest, s.store.flash = .suspended →
      s.store.batch = { source := .host r, kind := .read a n, arrival := arr } :: rest →
      let served : State := respond r .ok (bytes a n) { s with store := { s.store with batch := rest, since := s.now } }
      (rest ≠ [] → runs .flashReadDone s served) ∧
      (rest = [] → runs .flashReadDone s { served with store := { served.store with flash := .running } }))

/-- An overrun ends the operation TIMEOUT, resets the flash and releases the grant; so does a suspend command that is not
answered; the host's response comes after the notices of the decision pass (the model's choice, log 38); the reset done makes
the store IDLE, and a reset that fails makes it OFFLINE (R143, R144, R145). A boot read that overruns has its flash reset, and
start-up ends with DEFAULTS once that reset has ended, the store OFFLINE if it failed (R144, R161; that the part waits for the
reset in STARTING is the model's reading, log 23).
A reset that times out makes the store OFFLINE: an erase abandoned by a warm reset ends first (log 14), then every operation of
the queue ends FAULT, oldest first (log 47), its host answered or its channel failed; then the fetch engine chooses, and what it
offers ends FAULT too (R144, R145, R147). A reset done ends an abandoned erase before the next choice.
A batch READ that overruns ends TIMEOUT; the READs left in the batch go back to the queue, to the places of their arrival (the
model's reading, log 15); then the suspended erase ends TIMEOUT too, its sector unknown, and the flash is reset (R133, R144). -/
def Obligations.OverrunResetsFlash : Prop :=
  ((∀ (s : State) (o : Op), s.store.flash = .running ∨ s.store.flash = .suspending → s.store.op = some o →
     o.source ≠ .boot →
     let due := s.store.since + (o.kind.limitUs - s.store.ran)
     let u := clearOp .resetting (timeoutContent o { s with now := max s.now due })
     runs .runningTimeOverrun s (reported o.source .timeout []
       { u with store := { u.store with commanded := max s.now due } })) ∧
   (∀ (s : State) (o : Op), s.store.flash = .suspending → s.store.op = some o →
     let due := s.store.commanded + 100
     let u := clearOp .resetting (timeoutContent o { s with now := max s.now due })
     runs .suspendNoAnswer s (reported o.source .timeout []
       { u with store := { u.store with commanded := max s.now due } })) ∧
   (∀ s : State, s.store.flash = .resetting → s.store.op = none →
     ((∀ b, s.pow.boot = some b → b.failing = false) →
       runs .flashResetDone s (selectPoint { s with store := { s.store with flash := .idle } })) ∧
     (∀ b, s.pow.boot = some b → b.failing = true → s.store.queue = [] →
       runs .flashResetDone s (bootFails { s with store := { s.store with flash := .idle } }) ∧
       (s.fetch.slot = none → (∀ c, (s.channel c).state ≠ .armed) →
         runs .flashResetTimeout s (bootFails { s with now := max s.now (s.store.commanded + 1000),
                                                       store := { s.store with flash := .offline } })))) ∧
   (∀ (s : State) (a n arr : Nat) (b : Boot), s.store.flash = .running → s.store.grant = none →
     s.store.op = some { source := .boot, kind := .read a n, arrival := arr } → s.pow.boot = some b →
     let due := s.store.since + (1000 - s.store.ran)
     runs .runningTimeOverrun s { s with
       now := max s.now due,
       store := { s.store with flash := .resetting, op := none, page := 0, cut := false, suspends := 0, ran := 0,
                               since := max s.now due, commanded := max s.now due },
       pow := { s.pow with boot := some { b with failing := true } } })) ∧
  (∀ s : State, s.store.flash = .resetting →
     let faulted (o : OpSource) (u : State) : State := match o with
       | .host r => respond r .fault [] u
       | .fetch => fetchOutcome .fault u
       | .boot | .nobody => u
     let late : State := { s with now := max s.now (s.store.commanded + 1000) }
     let ended (u : State) : State := schedulePoint (u.store.queue.foldl (fun v o => faulted o.source v)
       { u with store := { u.store with queue := [] } })
     (∀ o, s.store.op = some o → runs .flashResetDone s (reported o.source .fault [] (clearOp .idle s))) ∧
     ((∀ b, s.pow.boot = some b → b.failing = false) →
       (s.store.op = none →
         runs .flashResetTimeout s (ended { late with store := { s.store with flash := .offline } })) ∧
       (∀ o, s.store.op = some o →
         runs .flashResetTimeout s (ended (faulted o.source (clearOp .offline late)))))) ∧
  (∀ (s : State) (erase : Op) (src : OpSource) (k : OpKind) (arr : Nat) (rest : List Op), s.store.flash = .suspended →
     s.store.op = some erase → s.store.batch = { source := src, kind := k, arrival := arr } :: rest →
     let due := max s.now (s.store.since + 1000)
     ∃ queue : List Op, queue.Perm (rest ++ s.store.queue) ∧
       (s.store.queue.Pairwise (fun a b => a.arrival ≤ b.arrival) → queue.Pairwise fun a b => a.arrival ≤ b.arrival) ∧
       let back : State := { s with now := due, store := { s.store with queue := queue, batch := [] } }
       let told : State := match src with
         | .host r => respond r .timeout [] back
         | .fetch => fetchOutcome .timeout back
         | .boot | .nobody => back
       let u := clearOp .resetting (timeoutContent erase told)
       runs .runningTimeOverrun s (reported erase.source .timeout [] { u with store := { u.store with commanded := due } }))

/-- The suspend test at the min-run point, and the batch fixed when the flash reports the erase suspended; with no READ to serve
the batch is empty and the erase runs on, its min-run interval new (R142, R143; that the point may come again in an interval is
the model's choice, log 52). -/
def Obligations.EraseSuspends : Prop :=
  (∀ (s : State) (src : OpSource) (sec arr : Nat), s.store.flash = .running →
    s.store.op = some { source := src, kind := .erase sec, arrival := arr } →
    let now := max s.now (s.store.since + s.settingNat .eraseMinRunUs)
    let u : State := { s with now := now }
    ((∃ p ∈ s.store.queue, s.servable p = true) → s.store.suspends < s.settingNat .suspendLimit →
      runs .minRunPoint s { u with store := { s.store with
        flash := .suspending, suspends := s.store.suspends + 1, commanded := now } }) ∧
    (((∀ p ∈ s.store.queue, s.servable p = false) ∨ s.settingNat .suspendLimit ≤ s.store.suspends) →
      runs .minRunPoint s u)) ∧
  (∀ (s : State) (p : Op), s.store.flash = .suspending → p ∈ s.store.queue → s.servable p = true →
    runs .flashSuspended s { s with store := { s.store with
      flash := .suspended, ran := s.store.ran + (s.now - s.store.since), since := s.now,
      batch := s.store.queue.filter s.servable, queue := s.store.queue.filter fun o => !s.servable o } }) ∧
  (∀ s : State, s.store.flash = .suspending → (∀ p ∈ s.store.queue, s.servable p = false) →
    runs .flashSuspended s { s with store := { s.store with
      flash := .running, ran := s.store.ran + (s.now - s.store.since), since := s.now, batch := [] } })

/-! ## Power control -/

/-- DOZE from ACTIVE and in DOZE, and refused in DRAINING (R149); WAKE in ACTIVE, in DOZE (R149, R156), and in DRAINING, where
it cancels the drain (R153). That a WAKE in DOZE clears resleep pending and the sleep order is the model's reading (log 48: R149
says so of the arrival of a host packet), and that in DRAINING the response comes after SLEEP_CANCELLED its choice (log 38). -/
def Obligations.DozeAndWake : Prop :=
  (∀ (s : State) (r : Request), s.taken .doze = some r →
    (s.pow.state = .active →
      runs .doze s (replied .doze r .ok [] { took .control s with pow := { s.pow with state := .doze } })) ∧
    (s.pow.state = .doze → runs .doze s (replied .doze r .ok [] (took .control s))) ∧
    (s.pow.state = .draining → runs .doze s (refusedWith .doze r .state s))) ∧
  (∀ (s : State) (r : Request), s.taken .wake = some r →
    (s.pow.state = .active → runs .wake s (replied .wake r .ok [] (took .control s))) ∧
    (s.pow.state = .doze → runs .wake s (replied .wake r .ok [] { took .control s with pow := { s.pow with
      state := .active, resleepPending := false, resleep := none, order := none } })) ∧
    (s.pow.state = .draining → runs .wake s (replied .wake r .ok [] (drainCancel (took .control s)))))

/-- SLEEP: RANGE, STATE in DRAINING, and otherwise a drain begins: the response is queued, the prior state, order and drain
timer are set, the light goes toward 0 with its target remembered, and every credit passes to FREE (R150). -/
def Obligations.SleepBeginsDrain : Prop :=
  ∀ (s : State) (r : Request), s.taken .sleep = some r →
    let sec := nat32At r.body 0
    let legal := sec ≤ 86400 ∧ byteAt r.body 4 ≤ 1
    (¬ legal → runs .sleep s (refusedWith .sleep r .range s)) ∧
    (legal → s.pow.state = .draining → runs .sleep s (refusedWith .sleep r .state s)) ∧
    (legal → s.pow.state = .active ∨ s.pow.state = .doze →
      ∃ t : State, runs .sleep s t ∧
        t.pow = { s.pow with state := .draining, prior := some s.pow.state, order := some (sec, byteAt r.body 4 == 1),
                             resleepPending := false, resleep := none,
                             drain := some (s.now + 1000 * s.settingNat .drainTimeoutMs) } ∧
        t.light.levelTarget = 0 ∧ t.light.settle = none ∧ t.light.step = none ∧ t.light.follow = s.light.follow ∧
        t.light.warmthTarget = s.light.warmthTarget ∧
        t.light.drainLevel = (if 0 < s.light.levelTarget then some s.light.levelTarget else s.light.drainLevel) ∧
        t.pool = s.pool.map (fun h => if h.isCredit then .free else h) ∧ t.creditLine = false ∧
        (∃ tail, t.link.out = s.link.out ++
          .response { kindByte := 0x45, tag := r.tag, code := .ok, body := [] } :: tail) ∧
        t.fetch = s.fetch ∧ t.store = s.store ∧ t.content = s.content ∧ t.cache = s.cache ∧ t.eng = s.eng)

/-- DRAIN_TIMER_EXPIRY: the drain fails, with the first unmet condition, and returns to its prior state (R152).
RESLEEP_TIMER_EXPIRY in DOZE with all eight conditions: every credit passes to FREE and SLEEP is entered (R156).
What entering SLEEP does (R151), whole: every run of a key ends, the timers the rule names stop, a conversion under way is
abandoned with its flag set again (R32), the outputs are held off, the flash goes to low power, the wake timer is armed for the
order's period and ENTERED is recorded; everything else the blocks hold is kept. A RADIO_ATTN that is high begins a wake at once,
with page memory's exit of 1 ms (R154, R156).
The return from a drain: the state returned to, with the prior state, timer and order cleared; follow steps resume; the
drain level, if there is one, is the level target again; then come a credit point and a scheduling point. A cancel returns to
ACTIVE, clears resleep pending and records SLEEP_CANCELLED (R97, R131, R152, R153; the order of the notices is the model's
choice, log 34). -/
def Obligations.SleepIsEntered : Prop :=
  (∀ (s : State) (due : Nat) (p : PowerState), s.pow.drain = some due → s.pow.state = .draining → s.pow.prior = some p →
     let u : State := { s with now := max s.now due, pow := { s.pow with failed := s.firstUnmet } }
     runs .drainTimerExpiry s (recordPower 2 (drainReturn p u))) ∧
  (∀ (s : State) (due : Nat), s.pow.resleep = some due → s.pow.state = .doze → s.drained = true →
     let u : State := { s with now := max s.now due, pool := s.pool.map fun h => if h.isCredit then .free else h }
     runs .resleepTimerExpiry s (enterSleep u)) ∧
  (∀ s : State,
     let ended (k : KeyScan) : KeyScan := { k with run := none }
     let cut (c : Chan) : Bool := match s.conv.busy with
       | some (d, _) => d == c
       | none => false
     let asleep : State := trigger .power { s with
       keys := { s.keys with fwd := ended s.keys.fwd, back := ended s.keys.back, light := ended s.keys.light,
                             power := ended s.keys.power },
       conv := { s.conv with temp := s.conv.temp || cut .temp, batt := s.conv.batt || cut .batt,
                             amb := s.conv.amb || cut .amb, busy := none, powered := false },
       wav := { s.wav with interval := none },
       sup := { s.sup with sample := none },
       light := { s.light with pwmOn := false, ramp := none },
       store := { s.store with flash := if s.store.flash = .idle then .lowPower else s.store.flash },
       pow := { s.pow with
         state := .sleep, prior := none, drain := none, resleep := none, waking := [], exit := none,
         events := s.pow.events ||| 2,
         wakeTimer := match s.pow.order with
           | some (sec, _) => if 0 < sec then some (s.now + 1000000 * sec) else none
           | none => none } }
     (s.pow.radioAttn = false → enterSleep s = asleep) ∧
     (s.pow.radioAttn = true → enterSleep s = { asleep with pow := { asleep.pow with
       waking := [.radio], lastWake := some .radio, wakeTimer := none, exit := some (s.now + 1000) } })) ∧
  (∀ (s : State) (p : PowerState),
     let back : State := { s with
       pow := { s.pow with state := p, prior := none, drain := none, order := none },
       light := { s.light with step := if s.light.follow = true then some (s.now + 500000) else s.light.step } }
     (s.light.drainLevel = none → drainReturn p s = schedulePoint (creditPoint back)) ∧
     (∀ level, s.light.drainLevel = some level → drainReturn p s = schedulePoint (creditPoint (targetsChanged
       { back with light := { back.light with levelTarget := level, drainLevel := none } }))) ∧
     drainCancel s = recordPower 3 (drainReturn .active { s with pow := { s.pow with resleepPending := false } }))

/-- Wake sources in SLEEP: the first begins the wake, with page memory's exit of 1 ms, the later ones join the set; the
fall of chip-select, the wake timer and a rise of RADIO_ATTN are three of them, and outside SLEEP they are none. A transfer
whose chip-select finds HOST among the sources of a wake is that wake's transfer; another is not, one in a reset's exit
included (R154; how long that mark stands is the model's choice, log 37). RADIO_ATTN_RISE carries the level, and with a low one
it notes the level alone (the model's choice, log 17). -/
def Obligations.WakeSourcesBeginWake : Prop :=
  ∀ s : State,
    let began (w : WakeSource) (u : State) : State := { u with pow := { u.pow with
      waking := [w], lastWake := some w, wakeTimer := none, exit := some (u.now + 1000) } }
    let marked (m : Bool) (u : State) : State := { u with link := { u.link with wakeTransfer := m } }
    (s.pow.state = .sleep → s.pow.exit = none → runs .chipSelectFall s (marked true (began .host s))) ∧
    (s.pow.state = .sleep → s.pow.exit ≠ none → s.pow.waking ≠ [] → .host ∉ s.pow.waking →
      runs .chipSelectFall s (marked true { s with pow := { s.pow with waking := s.pow.waking ++ [.host] } })) ∧
    (s.pow.state = .sleep → s.pow.exit ≠ none → .host ∈ s.pow.waking → runs .chipSelectFall s (marked true s)) ∧
    (s.pow.state = .sleep → s.pow.exit ≠ none → s.pow.waking = [] → runs .chipSelectFall s (marked false s)) ∧
    (s.pow.state ≠ .sleep → runs .chipSelectFall s (marked false s)) ∧
    (∀ due, s.pow.state = .sleep → s.pow.exit = none → s.pow.wakeTimer = some due →
      runs .wakeTimerExpiry s (began .timer { s with now := max s.now due })) ∧
    (s.pow.state = .sleep → s.pow.exit = none → s.pow.radioAttn = false →
      runs (.radioAttnRise true) s (began .radio { s with pow := { s.pow with radioAttn := true } })) ∧
    (s.pow.state = .sleep → s.pow.exit ≠ none → s.pow.waking ≠ [] → .radio ∉ s.pow.waking → s.pow.radioAttn = false →
      runs (.radioAttnRise true) s
        { s with pow := { s.pow with radioAttn := true, waking := s.pow.waking ++ [.radio] } }) ∧
    (∀ high, (s.pow.state ≠ .sleep ∨ high = false ∨ s.pow.radioAttn = true) →
      runs (.radioAttnRise high) s { s with pow := { s.pow with radioAttn := high } })

/-- SELF_REFRESH_EXIT_END of a wake by the radio alone: DOZE, the converter on with TEMP and BATT requested, the flash out of
low power, the light's outputs and follow steps resumed, a credit point and a scheduling point; resleep pending if the
order asks for it (R154, R155; that TEMP is converted first with BATT's flag left set is read from R31, log 32).
SELF_REFRESH_EXIT_END of any wake: ACTIVE if the host is among the sources, else DOZE; the converter, the flash, the light's
outputs, its ramp and its follow steps come up; each source's action is made in the order the sources were noted; then come a
credit point and a scheduling point; the order stays for a resleep unless the host woke the part (R90, R97, R146, R154, R156; that a HOST wake clears resleep pending
is read, log 59).
A reset event that waited for the exit is taken next (R162).
The action of each wake source: FWD and BACK make a turn attempt if turns are enabled, LIGHT restores the drain level or
toggles if its toggle is enabled, and its press makes no toggle at its release, TIMER records an event, and POWER, RADIO and
HOST do nothing (R155). The turn's update counts as this press's last, and the press is marked, only while the key is down (log
32), and with the toggle enabled at the wake (log 54); with a reading still fresh the update may be picked at once (log 55).
SELF_REFRESH_EXIT_END of the exit that a falling RESET began: the converter, the flash and the light's outputs come up with no
conversion requested, and then the reset event is taken. Whatever began the exit, a waiting reset leaves the part ACTIVE, started
warm, with no request waiting (R162). -/
def Obligations.ExitEndWakes : Prop :=
  (∀ (s : State) (due : Nat), s.pow.exit = some due → s.pow.state = .sleep → s.pow.waking = [.radio] →
     s.pow.resetWaits = false → (∀ c, (s.channel c).state ≠ .armed) → s.fetch.slot = none → s.store.queue = [] →
     s.conv.busy = none → s.conv.last = .amb → s.store.flash = .lowPower →
     ∃ t : State, runs .selfRefreshExitEnd s t ∧ t.pow.state = .doze ∧ t.pow.exit = none ∧ t.pow.waking = [] ∧
       t.pow.order = s.pow.order ∧ t.pow.resleepPending = (match s.pow.order with | some (_, b) => b | none => false) ∧
       t.conv = { temp := false, batt := true, amb := s.conv.amb, busy := some (.temp, max s.now due + 200), last := .amb,
                  powered := true } ∧
       t.store.flash = .idle ∧ t.light.pwmOn = true ∧ t.light.levelTarget = s.light.levelTarget ∧
       t.light.drainLevel = s.light.drainLevel ∧
       t.light.step = (if s.light.follow = true then some (max s.now due + 500000) else s.light.step) ∧ t.cache = s.cache ∧ t.img = s.img ∧ t.pool = s.pool ∧
       t.content = s.content) ∧
  (∀ (s : State) (due : Nat), s.pow.exit = some due → s.pow.waking ≠ [] →
     let u : State := { s with now := max s.now due }
     let kicked := convKick { u with
       pow := { s.pow with state := if WakeSource.host ∈ s.pow.waking then .active else .doze, exit := none },
       conv := { s.conv with powered := true, temp := true, batt := true } }
     let light : FrontLight := { s.light with
       pwmOn := true, warmDuty := s.warmDutyNow, coolDuty := s.coolDutyNow, warmDiv := s.settingNat .pwmDiv,
       coolDiv := s.settingNat .pwmDiv, ramp := if s.light.differs = true then some (u.now + 10000) else s.light.ramp,
       step := if s.light.follow = true then some (u.now + 500000) else s.light.step }
     let up : State := { kicked with light := light, store := { s.store with
       flash := if s.store.flash = .lowPower then .idle else s.store.flash } }
     let t := schedulePoint (creditPoint (s.pow.waking.foldl (fun v w => wakeAction w v) up))
     let done : Power := { t.pow with
       waking := [], resleepPending := t.pow.state == .doze && (match t.pow.order with | some (_, again) => again | none => false),
       order := if t.pow.state = .active then none else t.pow.order }
     (s.pow.resetWaits = false → runs .selfRefreshExitEnd s { t with pow := { done with exit := none } }) ∧
     (s.pow.resetWaits = true → runs .selfRefreshExitEnd s (warmEvent { t with pow := done }))) ∧
  (∀ s : State,
     (∀ k d, keyDir k = some d →
       let t := turnAttempt d .key (s.displayPlace + 1) s
       (s.turnsEnabled = false → wakeAction (keySource k) s = s) ∧
       (s.turnsEnabled = true → s.turnMiss d = none → (s.keys.key k).state ≠ .up → wakeAction (keySource k) s =
         { t with keys := s.keys.setKey k { s.keys.key k with last := some s.eng.nextNum } }) ∧
       (s.turnsEnabled = true → (s.turnMiss d ≠ none ∨ (s.keys.key k).state = .up) → wakeAction (keySource k) s = t)) ∧
     (s.toggleEnabled = false → wakeAction .light s = s) ∧
     (s.toggleEnabled = true →
       let muted (t : State) : State := { t with keys := { s.keys with light := { s.keys.light with
         mute := s.keys.light.state != .up } } }
       (∀ level, s.light.drainLevel = some level → wakeAction .light s = muted (targetsChanged
         { s with light := { s.light with levelTarget := level, drainLevel := none } })) ∧
       (s.light.drainLevel = none → wakeAction .light s = muted (toggleLight s))) ∧
     wakeAction .timer s = recordPower 4 s ∧ wakeAction .power s = s ∧ wakeAction .radio s = s ∧ wakeAction .host s = s) ∧
  (∀ (s : State) (due : Nat), s.pow.exit = some due → s.pow.resetWaits = true →
     let u : State := { s with now := max s.now due }
     (s.pow.waking = [] → runs .selfRefreshExitEnd s (warmEvent { u with
       conv := { s.conv with powered := true },
       store := { s.store with flash := if s.store.flash = .lowPower then .idle else s.store.flash },
       light := { s.light with
         pwmOn := true, warmDuty := s.warmDutyNow, coolDuty := s.coolDutyNow, warmDiv := s.settingNat .pwmDiv,
         coolDiv := s.settingNat .pwmDiv, ramp := if s.light.differs = true then some (u.now + 10000) else s.light.ramp,
         step := if s.light.follow = true then some (u.now + 500000) else s.light.step } })) ∧
     ∃ t : State, exec .selfRefreshExitEnd s = .next t ∧ t.pow.state = .active ∧ t.pow.resetWaits = false ∧
       t.pow.exit = none ∧ t.pow.outcome = .warm ∧ t.link.inbound = [])

/-- WARM_RESET in ACTIVE, DOZE or DRAINING: what each block keeps and what it loses; in SLEEP page memory leaves self-refresh
first, or a wake's exit under way runs to its end, and in STARTING the event is ignored; RESET_RISE raises the line again (R15, R54, R64, R85, R111, R132, R162, R164,
R175). WARM_RESET with the line low already changes nothing: that is no fall of it (the model's choice, log 2). That a channel's
erase cursor is 0, its erase retry clear and its FETCH events empty (logs 51, 45, 44), and that a lane STOPPING for ABORT is
dropped like the others (log 50), are the model's choices.
The whole state after a warm reset in ACTIVE, DOZE or DRAINING, for each state of the flash: packets held and stalled dropped
(R15), the open load and the plan's claim (R25, R54), converter flags (R32), engine queue, grants, records (R54), entries and
turn records (R64, R77), keys UP, timers stopped, key clock 0 (R85), light timers, events (R98), budget claims, cut mark, events
(R99, R111), channels and their slabs (R132), store (R147), power timers, orders (R162), link (R175). A held key's
debounce from the event is read (log 22); the stopped READ's release after the rest is the model's choice (log 57).
The store at a warm reset, by the flash's state: the queue empties; a claim is withdrawn and OFFLINE ends; a running reset
goes on; of an operation at the flash a READ stops and the store is IDLE, a PROGRAM ends at its page with no response to come,
and an ERASE is reset with its whole sector unknown (R104, R147; the unknown bytes are free values, log 6; that an abandoned
erase keeps its grant until the reset is done, and a program ends at its page whatever its outcome, is read, log 14). -/
def Obligations.WarmResetKeepsAndDrops : Prop :=
  ((∀ s : State, s.pow.resetLow = false → s.pow.state.awake = true → s.store.flash = .idle → s.store.op = none →
     ∃ t : State, exec .warmReset s = .next t ∧
       t.pow.state = .active ∧ t.pow.resetLow = true ∧ t.pow.outcome = .warm ∧ t.pow.skipped = 0 ∧
       t.pow.lastWake = s.pow.lastWake ∧ t.pow.events = 1 ∧ t.link.inbound = [] ∧ t.link.opened = 0 ∧
       t.link.out = [.waiting .power] ∧ t.img.held = [] ∧ t.img.stall = none ∧ t.img.shown = s.img.shown ∧
       t.img.target = s.img.target ∧ t.img.tiles = s.img.tiles ∧ t.img.toneMap = s.img.toneMap ∧
       t.eng.queue = [] ∧ t.eng.completions = [] ∧ t.eng.base = none ∧ t.eng.supply = s.eng.supply ∧
       t.eng.boundary = s.eng.boundary ∧
       (∀ l, some l ∈ t.eng.lanes → l.state = .stopping ∧ l.grant = 0 ∧ l.dropped = true) ∧
       t.cache.forward = [] ∧ t.cache.back = [] ∧ t.cache.tag = s.cache.tag ∧ t.cache.turnMode = s.cache.turnMode ∧
       (∀ h ∈ t.pool, h = .free ∨ h = .target) ∧ (∀ c, t.channel c = Channel.reset) ∧ t.fetch.reception = none ∧
       t.sup.waiting = [] ∧ t.sup.limit = s.sup.limit ∧ t.sup.filter = s.sup.filter ∧ t.sup.lowFired = s.sup.lowFired ∧
       t.light.level = s.light.level ∧ t.light.levelTarget = s.light.levelTarget ∧ t.light.grant = s.light.grant ∧
       t.light.drainLevel = s.light.drainLevel ∧ t.light.settle = none ∧ t.wav.reading = s.wav.reading ∧
       t.wav.band = s.wav.band ∧ t.settings = s.settings ∧ t.content = s.content ∧ t.keyClock = 0 ∧ t.ready = false) ∧
   (∀ s : State,
     (s.pow.resetLow = true → runs .warmReset s s) ∧
     (s.pow.resetLow = false → s.pow.state = .starting →
       runs .warmReset s { s with pow := { s.pow with resetLow := true } }) ∧
     (s.pow.resetLow = false → s.pow.state = .sleep → s.pow.exit = none →
       runs .warmReset s { s with pow := { s.pow with
         resetLow := true, resetWaits := true, exit := some (s.now + 1000) } }) ∧
     (s.pow.resetLow = false → s.pow.state = .sleep → s.pow.exit ≠ none →
       runs .warmReset s { s with pow := { s.pow with resetLow := true, resetWaits := true } })) ∧
   (∀ s : State, runs .resetRise s { s with pow := { s.pow with resetLow := false } })) ∧
  (∀ s : State, s.pow.resetLow = false → s.pow.state.awake = true →
     let key (k : KeyScan) : KeyScan := { KeyScan.reset with
       pressed := k.pressed, debounce := if k.pressed = true then some (s.now + 1000 * s.settingNat .debounceMs) else none }
     let ofFetch (o : Op) : Bool := match o.source with
       | .fetch => true
       | .host _ | .boot | .nobody => false
     let unstarted : Bool := s.store.queue.any ofFetch || (s.store.flash == .claiming && s.store.op.any ofFetch)
     let unanswered (o : Op) : Op := { o with source := match o.source with
       | .host _ => .nobody
       | x => x }
     let stored (st : Store) : State := { s with
       img := { s.img with held := [], stall := none },
       wav := { s.wav with
         waves := ((s.wav.waves.map fun w => { w with claimed := false }).filter fun w => w.state != .loading).filter fun w =>
           !(w.state == .retired && !w.inUse),
         events := 0, interval := some (s.now + 1000000 * s.settingNat .tempIntervalS) },
       conv := { s.conv with temp := false, batt := false, amb := false, busy := none, powered := true },
       eng := { s.eng with queue := [], completions := [], base := none, lanes := s.eng.lanes.map fun l => l.map fun l =>
         { l with state := .stopping, grant := 0, dropped := true } },
       pool := s.pool.map fun h => match h with
         | .free => .free
         | .target => .target
         | .entry _ | .credit _ | .chunk _ _ => .free,
       cache := { s.cache with forward := [], back := [], records := [], lost := false },
       keys := { fwd := key s.keys.fwd, back := key s.keys.back, light := key s.keys.light, power := key s.keys.power,
                 records := [], lost := false, epoch := s.now },
       light := { s.light with
         settle := none, events := 0, step := if s.light.follow = true then some (s.now + 500000) else none,
         ramp := if s.light.differs = true then some (s.now + 10000) else none },
       sup := { s.sup with waiting := [], cutMark := false, events := 0, sample := some (s.now + 1000000) },
       fetch := { Fetch.reset with
         slot := if unstarted = true then none else s.fetch.slot.map fun o => { o with ignored := true } },
       store := { st with queue := [] },
       pow := { s.pow with
         state := .active, prior := none, order := none, drain := none, wakeTimer := none, resleep := none,
         resleepPending := false, waking := [], exit := none, resetWaits := false, outcome := .warm, skipped := 0,
         failed := none, events := 0, boot := none, resetLow := true },
       link := Link.reset }
     let ends (u : State) : Prop := exec .warmReset s = .next (trigger .power { u with pow := { u.pow with events := 1 } })
     (s.store.flash = .claiming → ends (stored { s.store with flash := .idle, op := none })) ∧
     (s.store.flash = .offline → ends (stored { s.store with flash := .idle })) ∧
     (s.store.flash = .resetting → ends (stored s.store)) ∧
     (s.store.flash ≠ .claiming → s.store.flash ≠ .offline → s.store.flash ≠ .resetting →
       (s.store.op = none → ends (stored s.store)) ∧
       (∀ o a n, s.store.op = some o → o.kind = .read a n →
         let u := stored { s.store with
           flash := .idle, op := none, grant := none, page := 0, cut := false, suspends := 0, ran := 0, since := s.now }
         (s.store.grant = none → ends u) ∧ (s.store.grant ≠ none → ends (decisionPass u))) ∧
       (∀ o a d, s.store.op = some o → o.kind = .program a d →
         ends (stored { s.store with op := some (unanswered o), cut := true })) ∧
       (∀ o sec, s.store.op = some o → o.kind = .erase sec →
         ends { stored { s.store with op := some (unanswered o), flash := .resetting, commanded := s.now, batch := [] } with
           content := memWrite s.content (sec * 131072) (freeBytes s.fresh 131072), fresh := s.fresh + 131072 }))) ∧
  (∀ s : State, s.pow.resetLow = false → s.pow.state.awake = true →
     let unanswered (src : OpSource) : OpSource := match src with | .host _ => .nobody | x => x
     ∃ t : State, exec .warmReset s = .next t ∧
       (s.store.flash = .claiming → t.store = { s.store with queue := [], flash := .idle, op := none } ∧
         t.content = s.content) ∧
       (s.store.flash = .offline → t.store = { s.store with queue := [], flash := .idle } ∧ t.content = s.content) ∧
       (s.store.flash = .resetting → t.store = { s.store with queue := [] } ∧ t.content = s.content) ∧
       ((s.store.flash = .running ∨ s.store.flash = .suspending ∨ s.store.flash = .suspended) →
         (∀ src a n k, s.store.op = some { source := src, kind := .read a n, arrival := k } → t.content = s.content ∧
           t.store = { s.store with queue := [], flash := .idle, op := none, grant := none, page := 0, cut := false,
                                    suspends := 0, ran := 0, since := s.now }) ∧
         (∀ src a d k, s.store.op = some { source := src, kind := .program a d, arrival := k } → t.content = s.content ∧
           t.store = { s.store with queue := [], cut := true,
                                    op := some { source := unanswered src, kind := .program a d, arrival := k } }) ∧
         (∀ src sec k, s.store.op = some { source := src, kind := .erase sec, arrival := k } →
           t.content = memWrite s.content (sec * 131072) (freeBytes s.fresh 131072) ∧
           t.store = { s.store with queue := [], flash := .resetting, commanded := s.now, batch := [],
                                    op := some { source := unanswered src, kind := .erase sec, arrival := k } })))

/-! ## The page link -/

/-- SET stores by `storeSetting` and answers the value stored; an unknown number is refused RANGE. GET and STATUS answer and
change nothing (R173, R174; that the response of SET comes after the notices of what acts at once is the model's choice, log
38, and so are the open orders and forms of STATUS's sections, logs 16, 56 and 61).
Storing a setting: the value is clamped to its range, wake_set keeps its nine lowest bits, temp_max_age_s never falls
below temp_interval_s nor temp_high_dd below temp_low_dd, every other setting stays, and what acts at once acts: the floors
are credit points, light_max_ua reports the claim, the full currents change the mix (R29, R89, R91, R120, R173). -/
def Obligations.SettingsStored : Prop :=
  ((∀ (s : State) (r : Request), s.taken .set = some r →
     (settingOfNumber (byteAt r.body 0) = none → runs .set s (refusedWith .set r .range s)) ∧
     (∀ st, settingOfNumber (byteAt r.body 0) = some st →
       let t := storeSetting st (signed32 (nat32At r.body 1)) (took .control s)
       runs .set s (replied .set r .ok (byteOf (settingRow st).number :: leInt32 (t.setting st)) t))) ∧
   (∀ (s : State) (r : Request), s.taken .get = some r →
     (settingOfNumber (byteAt r.body 0) = none → runs .get s (refusedWith .get r .range s)) ∧
     (∀ st, settingOfNumber (byteAt r.body 0) = some st →
       runs .get s (replied .get r .ok (byteOf (settingRow st).number :: leInt32 (s.setting st)) (took .control s)))) ∧
   (∀ (s : State) (r : Request), s.taken .status = some r →
     runs .status s (replied .status r .ok (took .control s).statusBody (took .control s)))) ∧
  (∀ (s : State) (st : Setting) (v : Int), s.settings.length = 38 →
     let t := storeSetting st v s
     let row := settingRow st
     let put : State := { s with settings := s.settings.set (row.number - 1) (max row.lo (min row.hi v)) }
     (st ≠ .wakeSet → st ≠ .tempMaxAgeS → st ≠ .tempHighDd → t.setting st = max row.lo (min row.hi v)) ∧
     (st = .tempMaxAgeS → t.setting st = max (s.setting .tempIntervalS) (min row.hi v)) ∧
     (st = .tempHighDd → t.setting st = max (s.setting .tempLowDd) (min row.hi v)) ∧
     (st = .wakeSet → t.setting st = v % 512 ∧ 0 ≤ t.setting st ∧ t.setting st < 512) ∧
     (s.setting .tempIntervalS ≤ s.setting .tempMaxAgeS → t.setting .tempIntervalS ≤ t.setting .tempMaxAgeS) ∧
     (s.setting .tempLowDd ≤ s.setting .tempHighDd → t.setting .tempLowDd ≤ t.setting .tempHighDd) ∧
     (∀ other, other ≠ st → ¬ (st = .tempIntervalS ∧ other = .tempMaxAgeS) → ¬ (st = .tempLowDd ∧ other = .tempHighDd) →
       t.setting other = s.setting other) ∧
     ((st = .cacheFloor ∨ st = .fetchFloor) → t = creditPoint put) ∧
     (st = .lightMaxUa → t = reportClaim put) ∧
     ((st = .warmFullUa ∨ st = .coolFullUa) → t = lightMix put) ∧
     t.keys = s.keys ∧ t.cache = s.cache ∧ t.content = s.content ∧ t.pow = s.pow ∧ t.now = s.now)

/-- WRITE_TRANSFER: in STARTING and while RESET is low nothing; FRAMING, CRC and NOT_READY discard the packet and record the
event; a host packet is accepted: it takes the part from DOZE to ACTIVE, or cancels a drain, and is then UNKNOWN or LENGTH at
once, or the tail of the inbound list; each accepted packet opens a request. The transfer whose chip-select began or joined a
wake is judged as while READY is low, and its mark goes with it (R149, R153, R154, R163 to R166, R172). That a packet in SLEEP
is judged too is read from R163 (log 31), and how long the mark stands is the model's choice (log 37). -/
def Obligations.WriteTransferAccepts : Prop :=
  ∀ (s : State) (b : List Byte),
    let ended : State := { s with link := { s.link with wakeTransfer := false } }
    let n := nat16At b 2
    let framed := 4 ≤ b.length ∧ n ≤ 4160 ∧ n + 6 ≤ b.length
    let summed := crc16 (b.take (n + 4)) = BitVec.ofNat 16 (nat16At b (n + 4))
    ((s.pow.state = .starting ∨ s.pow.resetLow = true) → runs (.writeTransfer b) s s) ∧
    (s.pow.state ≠ .starting → s.pow.resetLow = false →
      (¬ framed → runs (.writeTransfer b) s (recordLink 1 ended)) ∧
      (framed → ¬ summed → runs (.writeTransfer b) s (recordLink 0 ended)) ∧
      (framed → summed → (s.ready = false ∨ s.link.wakeTransfer = true) →
        runs (.writeTransfer b) s (recordLink 2 ended)) ∧
      (framed → summed → s.ready = true → s.link.wakeTransfer = false → ∀ u : State,
        (s.pow.state = .active → u = s) →
        (s.pow.state = .doze → u = { s with pow := { s.pow with
          state := .active, resleepPending := false, resleep := none, order := none } }) →
        (s.pow.state = .draining → u = drainCancel s) →
        let opened : Link := { u.link with opened := u.link.opened + 1 }
        let refusal (c : Code) : OutItem :=
          .response { kindByte := b.getD 0 0, tag := b.getD 1 0, code := c, body := [] }
        (reqKindOf (byteAt b 0) = none →
          runs (.writeTransfer b) s { u with link := { opened with out := u.link.out ++ [refusal .unknown] } }) ∧
        (∀ k, reqKindOf (byteAt b 0) = some k → k.lengthOk n = false →
          runs (.writeTransfer b) s { u with link := { opened with out := u.link.out ++ [refusal .length] } }) ∧
        (∀ k, reqKindOf (byteAt b 0) = some k → k.lengthOk n = true →
          runs (.writeTransfer b) s { u with link := { opened with
            inbound := u.link.inbound ++ [{ kind := k, tag := b.getD 1 0, body := (b.drop 4).take n }] } })))

/-- READY is high exactly while the part is ACTIVE, DOZE or DRAINING, no exit runs, RESET is high and fewer than 16 requests
are open (R164).
ATTN in each power state (R158). -/
def Obligations.ReadyAndAttnLines : Prop :=
  (∀ s : State, s.ready = true ↔
     ((s.pow.state = .active ∨ s.pow.state = .doze ∨ s.pow.state = .draining) ∧ s.pow.exit = none ∧
       s.pow.resetLow = false ∧ s.link.opened < 16)) ∧
  (∀ s : State,
     (s.pow.state = .starting → s.attn = false) ∧
     (s.pow.state = .active → (s.attn = true ↔ s.link.out ≠ [])) ∧
     ((s.pow.state = .doze ∨ s.pow.state = .draining ∨ s.pow.state = .sleep) →
       (s.attn = true ↔ (∃ r, OutItem.response r ∈ s.link.out) ∨
         ∃ k, OutItem.waiting k ∈ s.link.out ∧ s.isWakeNotice k = true)) ∧
     (∀ k : NoticeKind, k ≠ .power → k ≠ .key → s.isWakeNotice k = s.inWakeSet k) ∧
     (s.isWakeNotice .power = true ↔
       (s.pow.events.getLsbD 5 = true ∨ (s.inWakeSet .power = true ∧ s.pow.events ≠ 2))) ∧
     (s.isWakeNotice .key = true ↔ (s.inWakeSet .key = true ∨ ∃ r ∈ s.keys.records, r.key = .power)))

/-- READ_TRANSFER: EMPTY from an empty queue, a response as it stands, a waiting notice built now, with its merged count and
its source's records, lost mark, counts and events emptied, and nothing else changed (R30, R52, R77, R79, R96, R110, R130, R157,
R172); a read that is not served, by the power state, by RESET or as the transfer of a wake, clocks out
0x00 (what it sends is read from R163, log 24; how long a wake's mark stands is the model's choice, log 37). PACKET_LEFT takes
the head away and frees a response's slot, and with no read under way nothing happens (log 2); a read still
being clocked when SLEEP is entered goes on (log 60). An unknown first byte records
FRAMING, in SLEEP too (log 31), but not in STARTING or while RESET is low (R154, R163, R164, R169, R170). -/
def Obligations.ReadsDeliverHead : Prop :=
  (∀ s : State, s.pow.state.awake = true → s.pow.resetLow = false → s.link.wakeTransfer = false →
    (s.link.out = [] →
      runs .readTransfer s { s with lastLink := packet 0xFF 0 [], link := { s.link with reading := .empty } }) ∧
    (∀ r rest, s.link.out = .response r :: rest →
      runs .readTransfer s { s with lastLink := packet 0x80 r.tag (r.kindByte :: byteOf r.code.code :: r.body),
                                    link := { s.link with reading := .head } }) ∧
    (∀ k rest, s.link.out = .waiting k :: rest →
      let p := packet (byteOf (0x90 + k.index)) 0 (byteOf (s.mergedOf k) :: s.noticeFields k)
      let emptied : State := match k with
        | .done => { s with eng := { s.eng with completions := [] } }
        | .key => { s with keys := { s.keys with records := [], lost := false } }
        | .turn => { s with cache := { s.cache with records := [], lost := false } }
        | .temp => { s with wav := { s.wav with events := 0 } }
        | .light => { s with light := { s.light with events := 0 } }
        | .budget => { s with sup := { s.sup with events := 0 } }
        | .fetch => { s with fetch := { s.fetch with channels := s.fetch.channels.map fun ch => { ch with events := 0 } } }
        | .power => { s with pow := { s.pow with events := 0 } }
        | .link => { s with link := { s.link with crc := 0, framing := 0, notReady := 0, events := 0 } }
      let t : State := { emptied with lastLink := p, link := { emptied.link with
        out := .built k p :: rest, merged := s.link.merged.set k.index 0, reading := .head } }
      runs .readTransfer s t ∧ t.mergedOf k = 0 ∧ t.noticeWaits k = rest.any (fun i => i == .waiting k)) ∧
    (∀ k p rest, s.link.out = .built k p :: rest →
      runs .readTransfer s { s with lastLink := p, link := { s.link with reading := .head } })) ∧
  (∀ s : State, (s.pow.state.awake = false ∨ s.pow.resetLow = true ∨ s.link.wakeTransfer = true) →
    runs .readTransfer s { s with lastLink := [0], link := { s.link with reading := .nothing, wakeTransfer := false } }) ∧
  (∀ (s : State) (i : OutItem) (rest : List OutItem), s.link.reading = .head → s.link.out = i :: rest →
    runs .packetLeft s { s with link := { s.link with
      out := rest, reading := .nothing, opened := if i.isResponse then s.link.opened - 1 else s.link.opened } }) ∧
  (∀ s : State, (s.link.reading = .nothing → runs .packetLeft s s) ∧
    (s.link.reading = .empty → runs .packetLeft s { s with link := { s.link with reading := .nothing } })) ∧
  (∀ s : State,
    (s.pow.state ≠ .starting → s.pow.resetLow = false →
      runs .unknownTransfer s (recordLink 1 { s with link := { s.link with wakeTransfer := false } })) ∧
    ((s.pow.state = .starting ∨ s.pow.resetLow = true) → runs .unknownTransfer s s))

/-- A trigger for a kind whose notice waits only raises its merged count, up to 255; one for a kind with none makes the notice,
at the queue's tail (R170).
Moderation: a trigger counts and arms the settle timer, the first of a cycle the absolute timer too, and makes the notice at
the count setting, at a settle setting of 0, and at an absolute setting of 0 when it is the first; a trigger or a forced point
that finds the notice waiting is remembered, and a forced point with none makes it; either timer's expiry with a count above 0
makes it, and with a count of 0 only stops; making it stops both timers and returns the count to 0 (R170, R171; that an expiry
of a stopped timer changes nothing is the model's choice, log 2).
A completion record joins the tail of the list and is one DONE trigger; if the list then holds 48 records and no DONE notice
waits, the notice is made at once (R51, R52, R171; that the record is one trigger at 48 too is the model's reading, log 19). -/
def Obligations.NoticesMergeAndModerate : Prop :=
  (∀ (s : State) (k : NoticeKind), s.link.merged.length = 9 →
     ((OutItem.waiting k) ∈ s.link.out →
       (trigger k s).link.out = s.link.out ∧ (trigger k s).mergedOf k = min 255 (s.mergedOf k + 1) ∧
       ∀ j, j ≠ k → (trigger k s).mergedOf j = s.mergedOf j) ∧
     ((OutItem.waiting k) ∉ s.link.out →
       trigger k s = { s with link := { s.link with out := s.link.out ++ [.waiting k] } })) ∧
  (∀ (s : State) (m : Moderated),
     let k := moderatedKind m
     let old := s.moderation m
     let made (u : State) : State := (u.setModeration m { count := 0, settle := none, absolute := none }).addOut (.waiting k)
     let atOnce := s.countSetting m ≤ old.count + 1 ∨ s.settleSetting m = 0 ∨ (old.count = 0 ∧ s.absoluteSetting m = 0)
     (s.noticeWaits k = true → moderatedTrigger m s = trigger k s ∧ forcedTrigger m s = trigger k s) ∧
     (s.noticeWaits k = false →
       forcedTrigger m s = made s ∧
       (atOnce → moderatedTrigger m s = made s) ∧
       (¬ atOnce → old.count = 0 → moderatedTrigger m s = s.setModeration m
         { count := 1, settle := some (s.now + 1000 * s.settleSetting m),
           absolute := some (s.now + 1000 * s.absoluteSetting m) }) ∧
       (¬ atOnce → 0 < old.count → moderatedTrigger m s = s.setModeration m
         { count := old.count + 1, settle := some (s.now + 1000 * s.settleSetting m), absolute := old.absolute })) ∧
     (old.settle = none → runs (.moderationSettleExpiry m) s s) ∧
     (∀ due, old.settle = some due →
       (old.count ≠ 0 → runs (.moderationSettleExpiry m) s (made { s with now := max s.now due })) ∧
       (old.count = 0 → runs (.moderationSettleExpiry m) s
         (({ s with now := max s.now due } : State).setModeration m { old with settle := none }))) ∧
     (old.absolute = none → runs (.moderationAbsoluteExpiry m) s s) ∧
     (∀ due, old.absolute = some due →
       (old.count ≠ 0 → runs (.moderationAbsoluteExpiry m) s (made { s with now := max s.now due })) ∧
       (old.count = 0 → runs (.moderationAbsoluteExpiry m) s
         (({ s with now := max s.now due } : State).setModeration m { old with absolute := none })))) ∧
  (∀ (s : State) (c : Completion),
     let u := moderatedTrigger .done { s with eng := { s.eng with completions := s.eng.completions ++ [c] } }
     u.eng = { s.eng with completions := s.eng.completions ++ [c] } ∧
     ((s.eng.completions.length < 47 ∨ u.noticeWaits .done = true) → appendCompletion c s = u) ∧
     (47 ≤ s.eng.completions.length → u.noticeWaits .done = false →
       appendCompletion c s = (u.setModeration .done { count := 0, settle := none, absolute := none }).addOut (.waiting .done) ∧
       (appendCompletion c s).noticeWaits .done = true))

/-! ## Keys -/

/-- KEY_EDGE: a change of the raw level arms the debounce timer, but in STARTING the scanner samples nothing; the same level is no
edge (R78; that the raw level follows the contact in STARTING too is the model's reading, log 26).
DEBOUNCE_EXPIRY: a bounce that returned changes nothing but the timer; a press takes the key to DOWN, arms the long timer and
records PRESS, and is then a wake source in SLEEP, a key turn for FWD and BACK with turns enabled, and nothing more otherwise; a
release takes it to UP and records RELEASE, and then settles a run that FWD or BACK ends, or toggles the light for a LIGHT key
released from DOWN (R78, R79, R80, R82, R83, R84; that KEY joins the queue before what the action makes is the model's choice,
log 34).
A key's turn: an attempt with source KEY, whose update, if the page turns, becomes the last update of the press; a miss only
appends its record (R72, R77, R80, R81). -/
def Obligations.KeyEdgesAndDebounce : Prop :=
  (∀ (s : State) (k : Key) (p : Bool),
     ((s.keys.key k).pressed = p → runs (.keyEdge k p) s s) ∧
     ((s.keys.key k).pressed ≠ p → s.pow.state ≠ .starting →
       runs (.keyEdge k p) s { s with keys := s.keys.setKey k { s.keys.key k with
         pressed := p, debounce := some (s.now + 1000 * s.settingNat .debounceMs) } }) ∧
     ((s.keys.key k).pressed ≠ p → s.pow.state = .starting →
       runs (.keyEdge k p) s { s with keys := s.keys.setKey k { s.keys.key k with pressed := p } })) ∧
  (∀ (s : State) (k : Key) (due : Nat), (s.keys.key k).debounce = some due →
     let ks := s.keys.key k
     let u : State := { s with now := max s.now due }
     let pressed := appendKey k .press { u with keys := s.keys.setKey k { ks with
       debounce := none, down := true, state := .down, long := some (u.now + 1000 * s.settingNat .longMs), run := none,
       last := none, mute := false } }
     let released := appendKey k .release { u with keys := s.keys.setKey k { ks with
       debounce := none, down := false, state := .up, long := none, run := none, last := none, mute := false } }
     (ks.pressed = ks.down →
       runs (.debounceExpiry k) s { u with keys := s.keys.setKey k { ks with debounce := none } }) ∧
     (ks.pressed = true → ks.down = false →
       (s.pow.state = .sleep → runs (.debounceExpiry k) s (wakeSource (keySource k) pressed)) ∧
       (s.pow.state ≠ .sleep →
         ((k = .power ∨ k = .light ∨ s.turnsEnabled = false) → runs (.debounceExpiry k) s pressed) ∧
         (k = .fwd → s.turnsEnabled = true → runs (.debounceExpiry k) s (keyTurn .fwd .forward pressed)) ∧
         (k = .back → s.turnsEnabled = true → runs (.debounceExpiry k) s (keyTurn .back .back pressed)))) ∧
     (ks.pressed = false → ks.down = true →
       ((s.pow.state = .sleep ∨ k = .power) → runs (.debounceExpiry k) s released) ∧
       (s.pow.state ≠ .sleep →
         (k = .fwd → runs (.debounceExpiry k) s (if ks.settles = true then settleRun .forward released else released)) ∧
         (k = .back → runs (.debounceExpiry k) s (if ks.settles = true then settleRun .back released else released)) ∧
         (k = .light → runs (.debounceExpiry k) s
           (if ks.state = .down ∧ ks.mute = false ∧ s.toggleEnabled = true then toggleLight released else released))))) ∧
  (∀ (s : State) (k : Key) (d : Dir),
     let t := turnAttempt d .key (s.displayPlace + 1) s
     (s.turnMiss d = none → keyTurn k d s =
       { t with keys := s.keys.setKey k { s.keys.key k with last := some s.eng.nextNum } }) ∧
     (∀ m, s.turnMiss d = some m → keyTurn k d s = t ∧ t = appendTurn
       { dir := d, miss := some m, tag := s.cache.tag, dropped := none, source := .key, time := s.keyClock } s))

/-- LONG_TIMER_EXPIRY takes a DOWN key to HELD and records LONG; for FWD and BACK outside SLEEP with turns enabled a run begins
with its first tick; for the other keys nothing more (R79, R80, R81, R83; that KEY joins the queue before what the tick makes is
the model's choice, log 34). A stopped timer expires to no effect (the model's choice, log 2).
RUN_TICK: skipped while the run's last update is queued or on a lane; with turns disabled the run ends with nothing
recorded; otherwise a turn attempt with source RUN: a miss appends its record and ends the run, and a turn is made, with its
update in SKIM the last one, and counted (R72, R73, R77, R81; that the ended run keeps its count is the model's reading, log 20).
A stopped run timer expires to no effect (the model's choice, log 2).
The LIGHT toggle stores a level target above 0 as the toggle level, makes the target 0, sets toggled-off and cancels the settle
timer; from a target of 0 it takes the toggle level and clears the mark; the ramp acts on it (R83). The settle update of a run
that counted a turn joins the queue with id 0, the whole panel and the target's turn mode, and the arbiter looks; refused by the
counts of R34 it leaves a MISSED record FULL (R34, R82). -/
def Obligations.LongPressAndRun : Prop :=
  ((∀ (s : State) (k : Key), (s.keys.key k).long = none → runs (.longTimerExpiry k) s s) ∧
   ∀ (s : State) (k : Key) (due : Nat), (s.keys.key k).long = some due →
     let ks := s.keys.key k
     let u : State := { s with now := max s.now due, keys := s.keys.setKey k { ks with long := none } }
     let held := appendKey k .long { u with keys := s.keys.setKey k { ks with long := none, state := .held } }
     (ks.state ≠ .down → runs (.longTimerExpiry k) s u) ∧
     (ks.state = .down → (k = .light ∨ k = .power ∨ s.pow.state = .sleep ∨ s.turnsEnabled = false) →
       runs (.longTimerExpiry k) s held) ∧
     (ks.state = .down → s.pow.state ≠ .sleep → s.turnsEnabled = true →
       (k = .fwd → runs (.longTimerExpiry k) s (ticked .fwd .forward 0 held)) ∧
       (k = .back → runs (.longTimerExpiry k) s (ticked .back .back 0 held)))) ∧
  ((∀ (s : State) (k : Key), (∀ r, (s.keys.key k).run = some r → r.timer = none) → runs (.runTick k) s s) ∧
   ∀ (s : State) (k : Key) (d : Dir) (due n : Nat), (s.keys.key k).run = some { timer := some due, turns := n } →
     keyDir k = some d →
     let ks := s.keys.key k
     let u : State := { s with now := max s.now due }
     let next : Timer := some (u.now + 1000 * s.settingNat .runMs)
     (s.lastLives k = true →
       runs (.runTick k) s { u with keys := s.keys.setKey k { ks with run := some { timer := next, turns := n } } }) ∧
     (s.lastLives k = false → s.turnsEnabled = false →
       runs (.runTick k) s { u with keys := s.keys.setKey k { ks with run := some { timer := none, turns := n } } }) ∧
     (s.lastLives k = false → s.turnsEnabled = true → ∀ m, s.turnMiss d = some m →
       let t := turnAttempt d .run (s.displayPlace + 1) u
       t = appendTurn { dir := d, miss := some m, tag := s.cache.tag, dropped := none, source := .run, time := u.keyClock } u ∧
       runs (.runTick k) s { t with keys := s.keys.setKey k { ks with run := none } }) ∧
     (s.lastLives k = false → s.turnsEnabled = true → s.turnMiss d = none →
       let t := turnAttempt d .run (s.displayPlace + 1) u
       (∃ e rest, s.cache.list d = e :: rest ∧ t = turnNow d .run (s.displayPlace + 1) e rest u) ∧
       runs (.runTick k) s { t with keys := s.keys.setKey k { ks with
         run := some { timer := next, turns := n + 1 }, last := some s.eng.nextNum } })) ∧
  (∀ s : State,
     (0 < s.light.levelTarget → toggleLight s = targetsChanged { s with light := { s.light with
       toggleLevel := s.light.levelTarget, levelTarget := 0, toggledOff := true, settle := none } }) ∧
     (s.light.levelTarget = 0 → toggleLight s = targetsChanged { s with light := { s.light with
       levelTarget := s.light.toggleLevel, toggledOff := false } }) ∧
     (∀ k : KeyScan, k.settles = true ↔ ∃ r, k.run = some r ∧ 0 < r.turns) ∧
     (∀ d : Dir,
       let room := s.eng.queue.length < 32 ∧ s.eng.queue.length + s.lanesOccupied + s.eng.completions.length < 48
       let update : QEntry :=
         { num := s.eng.nextNum, id := 0, region := { x0 := 0, y0 := 0, x1 := 1599, y1 := 1199 },
           tiles := { tx0 := 0, ty0 := 0, tx1 := 99, ty1 := 74 }, mode := s.cache.turnMode, noPromote := false,
           origin := .cache, place := s.displayPlace + 1, pick := none }
       (room → settleRun d s = lookPass { s with eng := { s.eng with
         queue := s.eng.queue ++ [update], nextNum := s.eng.nextNum + 1 } }) ∧
       (¬ room → settleRun d s = appendTurn { dir := d, miss := some .full, tag := s.cache.tag, dropped := none, source := .run,
                                              time := s.keyClock } s)))

/-! ## The boot table -/

/-- The boot read in parts: the header, whose marker, length and then CRC-32 over the entries decide whether any entry is applied;
the entries, in reads of up to 4,096 bytes from address 10; the walk; and the images it names (R159, R160, 12.7). The end of
start-up, with its outcome and skipped count: the part is ACTIVE, START is recorded, the sample timer runs, and a key held then is
debounced (R78, R159, R161; the last two are the model's reading, log 22).
The walk: each entry is applied as its request would be, or skipped and counted up to 255; END, or the end of the bytes,
ends it, and an entry that runs past them is skipped first; a WAVE_IMAGE outside the boot area is bad, and one inside is read;
at the end start-up ends LOADED or PARTIAL (R160, R161; an END with a length, a WAVE_IMAGE entry of another length than 8, an
image of no bytes and left-over bytes are the model's choice, log 27).
An image: its records are judged and installed in turn, as far as they have been read. A record is bad, and the image stops there,
when WAVE_BEGIN would refuse its fields, its units are not free, it runs past the image or its CRC-32 differs; a good one takes its
slot, whose waveform is freed if it is not in use. Bytes of a record still to be read wait for the next read of up to 4,096 bytes;
after the image the walk goes on (R160, 12.6; the size of the reads, and that records are installed between them, are the model's
choice, log 27).
DEFAULTS: everything the boot table changed is at its cold-reset value: every setting, the tone map, the band table, the limit
table and the limit by it, the follow state, the AMB request and the waveforms; what it did not change stays (R161). -/
def Obligations.BootTableApplied : Prop :=
  (∀ (s : State) (b : Boot) (bytes : List Byte), s.pow.boot = some b →
     let boot (f : Boot → Boot) (u : State) : State := { u with pow := { u.pow with boot := u.pow.boot.map f } }
     let reading (a n : Nat) (u : State) : State := { u with store := { u.store with
       op := some { source := .boot, kind := .read a n, arrival := 0 }, flash := .running, grant := none, page := 0,
       cut := false, suspends := 0, ran := 0, since := u.now } }
     let started (o : BootOutcome) (n : Nat) (u : State) : State :=
       let key (k : KeyScan) : KeyScan := { k with
         down := false, debounce := if k.pressed = true then some (u.now + 1000 * u.settingNat .debounceMs) else none }
       recordPower 0 { u with
         pow := { u.pow with state := .active, boot := none, outcome := o, skipped := n },
         keys := { u.keys with fwd := key u.keys.fwd, back := key u.keys.back, light := key u.keys.light,
                               power := key u.keys.power },
         sup := { u.sup with sample := some (u.now + 1000000) } }
     let len := nat32At bytes 2
     let good := nat16At bytes 0 = 0x4D5A ∧ 1 ≤ len ∧ len ≤ 65536
     let all := b.entries ++ bytes
     let kept := boot (fun b => { b with entries := all }) s
     (b.image = none → b.headerRead = false →
       (¬ good → bootReadDone bytes s = bootFails s) ∧
       (good → bootReadDone bytes s = reading 10 (min 4096 len) (boot (fun b =>
         { b with headerRead := true, length := len, sum := BitVec.ofNat 32 (nat32At bytes 6) }) s))) ∧
     (b.image = none → b.headerRead = true →
       (all.length < b.length →
         bootReadDone bytes s = reading (10 + all.length) (min 4096 (b.length - all.length)) kept) ∧
       (b.length ≤ all.length → crc32 all ≠ b.sum → bootReadDone bytes s = bootFails kept) ∧
       (b.length ≤ all.length → crc32 all = b.sum → bootReadDone bytes s = bootWalk kept)) ∧
     bootWalked s = started (if b.badImage = true then .partly else .loaded) b.skipped s ∧
     bootFails s = started .defaults 0 (revertBoot s) ∧
     (∀ u, bootBegin u = reading 0 10 { u with pow := { u.pow with boot := some ({
       headerRead := false, length := 0, sum := 0, entries := [], at_ := 0, image := none, skipped := 0, badImage := false,
       failing := false } : Boot) } })) ∧
  ((∀ (es : List Byte) (k : Nat) (u : State),
     let boot (f : Boot → Boot) (u : State) : State := { u with pow := { u.pow with boot := u.pow.boot.map f } }
     let skip := boot fun b => { b with skipped := min 255 (b.skipped + 1) }
     let walk (k : Nat) (u : State) := walkLoop es (es.length + 1) k u
     let kind := byteAt es k
     let len := nat16At es (k + 1)
     let d := (es.drop (k + 3)).take len
     let next := k + 3 + len
     (es.length ≤ k → walk k u = (u, .over)) ∧
     (k < es.length → (es.length < k + 3 ∨ es.length < next) → walk k u = (skip u, .over)) ∧
     (k + 3 ≤ es.length → next ≤ es.length →
       (kind = 0 → len = 0 → walk k u = (u, .over)) ∧
       ((kind = 0 ∧ len ≠ 0) ∨ (kind = 6 ∧ len ≠ 8) → walk k u = walk next (skip u)) ∧
       (kind = 6 → len = 8 →
         (1048576 < nat32At d 0 + nat32At d 4 → walk k u = walk next (boot (fun b => { b with badImage := true }) u)) ∧
         (nat32At d 0 + nat32At d 4 ≤ 1048576 → nat32At d 4 = 0 → walk k u = walk next u) ∧
         (nat32At d 0 + nat32At d 4 ≤ 1048576 → nat32At d 4 ≠ 0 →
           walk k u = (boot (fun b => { b with at_ := next }) u, .image (nat32At d 0) (nat32At d 4)))) ∧
       (kind ≠ 0 → kind ≠ 6 → walk k u = walk next (bootEntry kind d u))) ∧
     (∀ b v, u.pow.boot = some b → walkLoop b.entries (b.entries.length + 1) b.at_ u = (v, .over) → bootWalk u = bootWalked v) ∧
     (∀ b v a n, u.pow.boot = some b → walkLoop b.entries (b.entries.length + 1) b.at_ u = (v, .image a n) →
       bootWalk u = imageRead a n [] v)) ∧
   (∀ (d : List Byte) (u : State),
     let skip : State := { u with pow := { u.pow with boot := u.pow.boot.map fun b =>
       { b with skipped := min 255 (b.skipped + 1) } } }
     let pts := pairs16 d
     let table := if pairs16 (d.drop 1) = [] then u.light.table else pairs16 (d.drop 1)
     (∀ kind, kind < 1 ∨ 5 < kind → bootEntry kind d u = skip) ∧
     (∀ st, settingOfNumber (byteAt d 0) = some st → d.length = 5 →
       bootEntry 1 d u = storeSetting st (signed32 (nat32At d 1)) u) ∧
     (settingOfNumber (byteAt d 0) = none ∨ d.length ≠ 5 → bootEntry 1 d u = skip) ∧
     (d.length = 256 → (∀ x ∈ d, x.toNat ≤ 15) →
       bootEntry 2 d u = { u with img := { u.img with toneMap := d.map fun x => x.toNat } }) ∧
     (d.length ≠ 256 ∨ (∃ x ∈ d, 15 < x.toNat) → bootEntry 2 d u = skip) ∧
     (ReqKind.bands.lengthOk d.length = true → bandsCheck d = none → bootEntry 3 d u = putBands d u ∧
       (putBands d u).wav.table = { count := byteAt d 0, bounds := boundsOf d, hyst := byteAt d 1 } ∧
       (putBands d u).wav.band = none ∧ (putBands d u).conv = u.conv) ∧
     (ReqKind.bands.lengthOk d.length = false ∨ bandsCheck d ≠ none → bootEntry 3 d u = skip) ∧
     (ReqKind.limits.lengthOk d.length = true → limitsOk pts = true → bootEntry 4 d u =
       match u.sup.volts with
       | none => { u with sup := { u.sup with limitTable := pts } }
       | some v => newLimit (limitFor pts v) { u with sup := { u.sup with limitTable := pts } }) ∧
     (ReqKind.limits.lengthOk d.length = false ∨ limitsOk pts = false → bootEntry 4 d u = skip) ∧
     (ReqKind.follow.lengthOk d.length = true → followCheck u.light.table d = none → bootEntry 5 d u =
       if byteAt d 0 = 1 then convRequest .amb { u with light := { u.light with
         table := table, follow := true, toggledOff := false, settle := none, step := some (u.now + 500000) } }
       else { u with light := { u.light with table := table, follow := false, settle := none, step := none } }) ∧
     (ReqKind.follow.lengthOk d.length = false ∨ followCheck u.light.table d ≠ none → bootEntry 5 d u = skip))) ∧
  ((∀ (s : State) (b : Boot) (i : BootImage) (bytes : List Byte), s.pow.boot = some b → b.image = some i →
     let all := i.got ++ bytes
     let judged := imageLoop i.left (all.length + 1) all s
     let boot (f : Boot → Boot) (u : State) : State := { u with pow := { u.pow with boot := u.pow.boot.map f } }
     (∀ u, judged = (u, .over) → bootReadDone bytes s = bootWalk (boot (fun b => { b with image := none }) u)) ∧
     (∀ u, judged = (u, .bad) →
       bootReadDone bytes s = bootWalk (boot (fun b => { b with image := none, badImage := true }) u)) ∧
     (∀ u rest, judged = (u, .more rest) → bootReadDone bytes s = imageRead i.next i.left rest u)) ∧
   (∀ (u : State) (next left : Nat) (got : List Byte),
     let n := min 4096 left
     imageRead next left got u = { u with
       pow := { u.pow with boot := u.pow.boot.map fun b =>
         { b with image := some { next := next + n, left := left - n, got := got } } },
       store := { u.store with op := some { source := .boot, kind := .read next n, arrival := 0 }, flash := .running,
                               grant := none, page := 0, cut := false, suspends := 0, ran := 0, since := u.now } }) ∧
   (∀ (u : State) (left : Nat) (bs : List Byte),
     let judge (bs : List Byte) (u : State) := imageLoop left (bs.length + 1) bs u
     let phases := byteAt bs 2
     let size := 8 + 64 * phases
     let data := (bs.drop 8).take (64 * phases)
     let fits := byteAt bs 0 ≤ 3 ∧ byteAt bs 1 < u.wav.table.count ∧ 1 ≤ phases ∧ phases ≤ u.freeUnits ∧
       size ≤ bs.length + left
     let summed := crc32 data = BitVec.ofNat 32 (nat32At bs 4)
     (bs.length + left = 0 → judge bs u = (u, .over)) ∧
     (0 < bs.length + left → bs.length + left < 8 → judge bs u = (u, .bad)) ∧
     (8 ≤ bs.length + left → bs.length < 8 → judge bs u = (u, .more bs)) ∧
     (8 ≤ bs.length →
       (¬ fits → judge bs u = (u, .bad)) ∧
       (fits → bs.length < size → judge bs u = (u, .more bs)) ∧
       (fits → size ≤ bs.length → ¬ summed → judge bs u = (u, .bad)) ∧
       (fits → size ≤ bs.length → summed → judge bs u = judge (bs.drop size) (installRecord bs u)) ∧
       (∀ m : Mode, byteAt bs 0 = m.code →
         let w : Wave := { num := u.wav.nextNum, mode := m, band := byteAt bs 1, current := byteAt bs 3,
                           phases := phaseUnitsOf data, state := .installed, lanes := 0, claimed := false }
         let v := installRecord bs u
         v = { u with wav := { u.wav with waves := v.wav.waves, nextNum := u.wav.nextNum + 1 } } ∧ w ∈ v.wav.waves ∧
         (∀ x ∈ u.wav.waves, x.num ≠ w.num → x.state = .installed → x.mode = m → x.band = byteAt bs 1 → x.inUse = false →
           ∀ y ∈ v.wav.waves, y.num ≠ w.num → y ≠ x ∧ y ≠ { x with state := .retired }) ∧
         (∀ x ∈ u.wav.waves, x.num ≠ w.num → x.state ≠ .retired →
           ¬ (x.state = .installed ∧ x.mode = m ∧ x.band = byteAt bs 1) → x ∈ v.wav.waves))))) ∧
  (∀ s : State, s.sup.waiting = [] → s.eng.queue = [] → s.store.flash ≠ .claiming → s.fetch.paused = false →
     s.light.claim = 0 → s.light.grant = 0 →
     let t := bootFails s
     t.pow.state = .active ∧ t.pow.outcome = .defaults ∧ t.pow.skipped = 0 ∧ t.pow.boot = none ∧
     t.pow.events = s.pow.events ||| 1 ∧
     t.settings = defaultSettings ∧ t.img = { s.img with toneMap := defaultToneMap } ∧
     t.wav = { s.wav with waves := [], table := { count := 1, bounds := [], hyst := 0 } } ∧
     t.sup = { s.sup with limitTable := defaultLimitTable,
                          limit := (match s.sup.volts with | none => s.sup.limit | some v => limitFor defaultLimitTable v),
                          sample := some (s.now + 1000000) } ∧
     (∃ warm cool, t.light = { s.light with
       follow := false, table := [], step := none, settle := none, toggledOff := false, warmDuty := warm, coolDuty := cool }) ∧
     t.conv = { s.conv with amb := false } ∧
     t.eng = s.eng ∧ t.pool = s.pool ∧ t.cache = s.cache ∧ t.fetch = s.fetch ∧ t.store = s.store ∧ t.content = s.content)
end

