-- ==== Sys2Proof/Laws/Frames.lean ====
section
/-! SUPPORT. Laws/Frames.lean: for each shared operation, the records of State that it leaves as they are, in one lemma that
`simp` uses field by field. -/

namespace Sys2Proof.Machine

open Sys2Proof

/-! ## Notices and events -/

/-- What a packet is queued leaves. -/
@[simp] theorem addOut_frame (i : OutItem) (s : State) :
    (s.addOut i).now = s.now ∧ (s.addOut i).pending = s.pending ∧ (s.addOut i).fresh = s.fresh ∧
    (s.addOut i).lastLink = s.lastLink ∧ (s.addOut i).lastRadio = s.lastRadio ∧
    (s.addOut i).displayPlace = s.displayPlace ∧ (s.addOut i).settings = s.settings ∧ (s.addOut i).img = s.img ∧
    (s.addOut i).wav = s.wav ∧ (s.addOut i).conv = s.conv ∧ (s.addOut i).eng = s.eng ∧ (s.addOut i).pool = s.pool ∧
    (s.addOut i).cache = s.cache ∧ (s.addOut i).keys = s.keys ∧ (s.addOut i).light = s.light ∧
    (s.addOut i).sup = s.sup ∧ (s.addOut i).fetch = s.fetch ∧ (s.addOut i).store = s.store ∧
    (s.addOut i).content = s.content ∧ (s.addOut i).pow = s.pow := by
  simp only [State.addOut]
  simp

/-- What a response is queued leaves. -/
@[simp] theorem respond_frame (r : Request) (c : Code) (b : List Byte) (s : State) :
    (respond r c b s).now = s.now ∧ (respond r c b s).pending = s.pending ∧ (respond r c b s).fresh = s.fresh ∧
    (respond r c b s).lastLink = s.lastLink ∧ (respond r c b s).lastRadio = s.lastRadio ∧
    (respond r c b s).displayPlace = s.displayPlace ∧ (respond r c b s).settings = s.settings ∧
    (respond r c b s).img = s.img ∧ (respond r c b s).wav = s.wav ∧ (respond r c b s).conv = s.conv ∧
    (respond r c b s).eng = s.eng ∧ (respond r c b s).pool = s.pool ∧ (respond r c b s).cache = s.cache ∧
    (respond r c b s).keys = s.keys ∧ (respond r c b s).light = s.light ∧ (respond r c b s).sup = s.sup ∧
    (respond r c b s).fetch = s.fetch ∧ (respond r c b s).store = s.store ∧ (respond r c b s).content = s.content ∧
    (respond r c b s).pow = s.pow := by
  simp only [respond]
  simp

/-- What a merged trigger leaves. -/
@[simp] theorem mergeTrigger_frame (k : NoticeKind) (s : State) :
    (mergeTrigger k s).now = s.now ∧ (mergeTrigger k s).pending = s.pending ∧ (mergeTrigger k s).fresh = s.fresh ∧
    (mergeTrigger k s).lastLink = s.lastLink ∧ (mergeTrigger k s).lastRadio = s.lastRadio ∧
    (mergeTrigger k s).displayPlace = s.displayPlace ∧ (mergeTrigger k s).settings = s.settings ∧
    (mergeTrigger k s).img = s.img ∧ (mergeTrigger k s).wav = s.wav ∧ (mergeTrigger k s).conv = s.conv ∧
    (mergeTrigger k s).eng = s.eng ∧ (mergeTrigger k s).pool = s.pool ∧ (mergeTrigger k s).cache = s.cache ∧
    (mergeTrigger k s).keys = s.keys ∧ (mergeTrigger k s).light = s.light ∧ (mergeTrigger k s).sup = s.sup ∧
    (mergeTrigger k s).fetch = s.fetch ∧ (mergeTrigger k s).store = s.store ∧
    (mergeTrigger k s).content = s.content ∧ (mergeTrigger k s).pow = s.pow := by
  simp only [mergeTrigger]
  simp

/-- What a trigger leaves. -/
@[simp] theorem trigger_frame (k : NoticeKind) (s : State) :
    (trigger k s).now = s.now ∧ (trigger k s).pending = s.pending ∧ (trigger k s).fresh = s.fresh ∧
    (trigger k s).lastLink = s.lastLink ∧ (trigger k s).lastRadio = s.lastRadio ∧
    (trigger k s).displayPlace = s.displayPlace ∧ (trigger k s).settings = s.settings ∧ (trigger k s).img = s.img ∧
    (trigger k s).wav = s.wav ∧ (trigger k s).conv = s.conv ∧ (trigger k s).eng = s.eng ∧
    (trigger k s).pool = s.pool ∧ (trigger k s).cache = s.cache ∧ (trigger k s).keys = s.keys ∧
    (trigger k s).light = s.light ∧ (trigger k s).sup = s.sup ∧ (trigger k s).fetch = s.fetch ∧
    (trigger k s).store = s.store ∧ (trigger k s).content = s.content ∧ (trigger k s).pow = s.pow := by
  simp only [trigger]
  repeat' split
  all_goals simp

/-- What a moderation record is set leaves. -/
@[simp] theorem setModeration_frame (m : Moderated) (v : Moderation) (s : State) :
    (s.setModeration m v).now = s.now ∧ (s.setModeration m v).pending = s.pending ∧
    (s.setModeration m v).fresh = s.fresh ∧ (s.setModeration m v).lastLink = s.lastLink ∧
    (s.setModeration m v).lastRadio = s.lastRadio ∧ (s.setModeration m v).displayPlace = s.displayPlace ∧
    (s.setModeration m v).settings = s.settings ∧ (s.setModeration m v).img = s.img ∧
    (s.setModeration m v).wav = s.wav ∧ (s.setModeration m v).conv = s.conv ∧ (s.setModeration m v).eng = s.eng ∧
    (s.setModeration m v).pool = s.pool ∧ (s.setModeration m v).cache = s.cache ∧
    (s.setModeration m v).keys = s.keys ∧ (s.setModeration m v).light = s.light ∧
    (s.setModeration m v).sup = s.sup ∧ (s.setModeration m v).fetch = s.fetch ∧
    (s.setModeration m v).store = s.store ∧ (s.setModeration m v).content = s.content ∧
    (s.setModeration m v).pow = s.pow := by
  cases m <;> simp [State.setModeration]

/-- What a moderated notice leaves. -/
@[simp] theorem createModerated_frame (m : Moderated) (s : State) :
    (createModerated m s).now = s.now ∧ (createModerated m s).pending = s.pending ∧
    (createModerated m s).fresh = s.fresh ∧ (createModerated m s).lastLink = s.lastLink ∧
    (createModerated m s).lastRadio = s.lastRadio ∧ (createModerated m s).displayPlace = s.displayPlace ∧
    (createModerated m s).settings = s.settings ∧ (createModerated m s).img = s.img ∧
    (createModerated m s).wav = s.wav ∧ (createModerated m s).conv = s.conv ∧ (createModerated m s).eng = s.eng ∧
    (createModerated m s).pool = s.pool ∧ (createModerated m s).cache = s.cache ∧
    (createModerated m s).keys = s.keys ∧ (createModerated m s).light = s.light ∧
    (createModerated m s).sup = s.sup ∧ (createModerated m s).fetch = s.fetch ∧
    (createModerated m s).store = s.store ∧ (createModerated m s).content = s.content ∧
    (createModerated m s).pow = s.pow := by
  simp only [createModerated]
  simp

/-- What a moderated trigger leaves. -/
@[simp] theorem moderatedTrigger_frame (m : Moderated) (s : State) :
    (moderatedTrigger m s).now = s.now ∧ (moderatedTrigger m s).pending = s.pending ∧
    (moderatedTrigger m s).fresh = s.fresh ∧ (moderatedTrigger m s).lastLink = s.lastLink ∧
    (moderatedTrigger m s).lastRadio = s.lastRadio ∧ (moderatedTrigger m s).displayPlace = s.displayPlace ∧
    (moderatedTrigger m s).settings = s.settings ∧ (moderatedTrigger m s).img = s.img ∧
    (moderatedTrigger m s).wav = s.wav ∧ (moderatedTrigger m s).conv = s.conv ∧
    (moderatedTrigger m s).eng = s.eng ∧ (moderatedTrigger m s).pool = s.pool ∧
    (moderatedTrigger m s).cache = s.cache ∧ (moderatedTrigger m s).keys = s.keys ∧
    (moderatedTrigger m s).light = s.light ∧ (moderatedTrigger m s).sup = s.sup ∧
    (moderatedTrigger m s).fetch = s.fetch ∧ (moderatedTrigger m s).store = s.store ∧
    (moderatedTrigger m s).content = s.content ∧ (moderatedTrigger m s).pow = s.pow := by
  simp only [moderatedTrigger]
  repeat' split
  all_goals simp

/-- What a forced trigger leaves. -/
@[simp] theorem forcedTrigger_frame (m : Moderated) (s : State) :
    (forcedTrigger m s).now = s.now ∧ (forcedTrigger m s).pending = s.pending ∧
    (forcedTrigger m s).fresh = s.fresh ∧ (forcedTrigger m s).lastLink = s.lastLink ∧
    (forcedTrigger m s).lastRadio = s.lastRadio ∧ (forcedTrigger m s).displayPlace = s.displayPlace ∧
    (forcedTrigger m s).settings = s.settings ∧ (forcedTrigger m s).img = s.img ∧ (forcedTrigger m s).wav = s.wav ∧
    (forcedTrigger m s).conv = s.conv ∧ (forcedTrigger m s).eng = s.eng ∧ (forcedTrigger m s).pool = s.pool ∧
    (forcedTrigger m s).cache = s.cache ∧ (forcedTrigger m s).keys = s.keys ∧ (forcedTrigger m s).light = s.light ∧
    (forcedTrigger m s).sup = s.sup ∧ (forcedTrigger m s).fetch = s.fetch ∧ (forcedTrigger m s).store = s.store ∧
    (forcedTrigger m s).content = s.content ∧ (forcedTrigger m s).pow = s.pow := by
  simp only [forcedTrigger]
  repeat' split
  all_goals simp

/-- What a TEMP event leaves. -/
@[simp] theorem recordTemp_frame (k : Nat) (s : State) :
    (recordTemp k s).now = s.now ∧ (recordTemp k s).pending = s.pending ∧ (recordTemp k s).fresh = s.fresh ∧
    (recordTemp k s).lastLink = s.lastLink ∧ (recordTemp k s).lastRadio = s.lastRadio ∧
    (recordTemp k s).displayPlace = s.displayPlace ∧ (recordTemp k s).settings = s.settings ∧
    (recordTemp k s).img = s.img ∧ (recordTemp k s).conv = s.conv ∧ (recordTemp k s).eng = s.eng ∧
    (recordTemp k s).pool = s.pool ∧ (recordTemp k s).cache = s.cache ∧ (recordTemp k s).keys = s.keys ∧
    (recordTemp k s).light = s.light ∧ (recordTemp k s).sup = s.sup ∧ (recordTemp k s).fetch = s.fetch ∧
    (recordTemp k s).store = s.store ∧ (recordTemp k s).content = s.content ∧ (recordTemp k s).pow = s.pow := by
  simp only [recordTemp]
  simp

/-- What a LIGHT event leaves. -/
@[simp] theorem recordLight_frame (k : Nat) (s : State) :
    (recordLight k s).now = s.now ∧ (recordLight k s).pending = s.pending ∧ (recordLight k s).fresh = s.fresh ∧
    (recordLight k s).lastLink = s.lastLink ∧ (recordLight k s).lastRadio = s.lastRadio ∧
    (recordLight k s).displayPlace = s.displayPlace ∧ (recordLight k s).settings = s.settings ∧
    (recordLight k s).img = s.img ∧ (recordLight k s).wav = s.wav ∧ (recordLight k s).conv = s.conv ∧
    (recordLight k s).eng = s.eng ∧ (recordLight k s).pool = s.pool ∧ (recordLight k s).cache = s.cache ∧
    (recordLight k s).keys = s.keys ∧ (recordLight k s).sup = s.sup ∧ (recordLight k s).fetch = s.fetch ∧
    (recordLight k s).store = s.store ∧ (recordLight k s).content = s.content ∧ (recordLight k s).pow = s.pow := by
  simp only [recordLight]
  simp

/-- What a BUDGET event leaves. -/
@[simp] theorem recordBudget_frame (k : Nat) (s : State) :
    (recordBudget k s).now = s.now ∧ (recordBudget k s).pending = s.pending ∧ (recordBudget k s).fresh = s.fresh ∧
    (recordBudget k s).lastLink = s.lastLink ∧ (recordBudget k s).lastRadio = s.lastRadio ∧
    (recordBudget k s).displayPlace = s.displayPlace ∧ (recordBudget k s).settings = s.settings ∧
    (recordBudget k s).img = s.img ∧ (recordBudget k s).wav = s.wav ∧ (recordBudget k s).conv = s.conv ∧
    (recordBudget k s).eng = s.eng ∧ (recordBudget k s).pool = s.pool ∧ (recordBudget k s).cache = s.cache ∧
    (recordBudget k s).keys = s.keys ∧ (recordBudget k s).light = s.light ∧ (recordBudget k s).fetch = s.fetch ∧
    (recordBudget k s).store = s.store ∧ (recordBudget k s).content = s.content ∧ (recordBudget k s).pow = s.pow := by
  simp only [recordBudget]
  simp

/-- What a POWER event leaves. -/
@[simp] theorem recordPower_frame (k : Nat) (s : State) :
    (recordPower k s).now = s.now ∧ (recordPower k s).pending = s.pending ∧ (recordPower k s).fresh = s.fresh ∧
    (recordPower k s).lastLink = s.lastLink ∧ (recordPower k s).lastRadio = s.lastRadio ∧
    (recordPower k s).displayPlace = s.displayPlace ∧ (recordPower k s).settings = s.settings ∧
    (recordPower k s).img = s.img ∧ (recordPower k s).wav = s.wav ∧ (recordPower k s).conv = s.conv ∧
    (recordPower k s).eng = s.eng ∧ (recordPower k s).pool = s.pool ∧ (recordPower k s).cache = s.cache ∧
    (recordPower k s).keys = s.keys ∧ (recordPower k s).light = s.light ∧ (recordPower k s).sup = s.sup ∧
    (recordPower k s).fetch = s.fetch ∧ (recordPower k s).store = s.store ∧ (recordPower k s).content = s.content := by
  simp only [recordPower]
  simp

/-- What a LINK event leaves. -/
@[simp] theorem recordLink_frame (k : Nat) (s : State) :
    (recordLink k s).now = s.now ∧ (recordLink k s).pending = s.pending ∧ (recordLink k s).fresh = s.fresh ∧
    (recordLink k s).lastLink = s.lastLink ∧ (recordLink k s).lastRadio = s.lastRadio ∧
    (recordLink k s).displayPlace = s.displayPlace ∧ (recordLink k s).settings = s.settings ∧
    (recordLink k s).img = s.img ∧ (recordLink k s).wav = s.wav ∧ (recordLink k s).conv = s.conv ∧
    (recordLink k s).eng = s.eng ∧ (recordLink k s).pool = s.pool ∧ (recordLink k s).cache = s.cache ∧
    (recordLink k s).keys = s.keys ∧ (recordLink k s).light = s.light ∧ (recordLink k s).sup = s.sup ∧
    (recordLink k s).fetch = s.fetch ∧ (recordLink k s).store = s.store ∧ (recordLink k s).content = s.content ∧
    (recordLink k s).pow = s.pow := by
  simp only [recordLink]
  repeat' split
  all_goals simp

/-- What a completion record leaves. -/
@[simp] theorem appendCompletion_frame (c : Completion) (s : State) :
    (appendCompletion c s).now = s.now ∧ (appendCompletion c s).pending = s.pending ∧
    (appendCompletion c s).fresh = s.fresh ∧ (appendCompletion c s).lastLink = s.lastLink ∧
    (appendCompletion c s).lastRadio = s.lastRadio ∧ (appendCompletion c s).displayPlace = s.displayPlace ∧
    (appendCompletion c s).settings = s.settings ∧ (appendCompletion c s).img = s.img ∧
    (appendCompletion c s).wav = s.wav ∧ (appendCompletion c s).conv = s.conv ∧
    (appendCompletion c s).pool = s.pool ∧ (appendCompletion c s).cache = s.cache ∧
    (appendCompletion c s).keys = s.keys ∧ (appendCompletion c s).light = s.light ∧
    (appendCompletion c s).sup = s.sup ∧ (appendCompletion c s).fetch = s.fetch ∧
    (appendCompletion c s).store = s.store ∧ (appendCompletion c s).content = s.content ∧
    (appendCompletion c s).pow = s.pow := by
  simp only [appendCompletion]
  repeat' split
  all_goals simp

/-- What a turn record leaves. -/
@[simp] theorem appendTurn_frame (r : TurnRecord) (s : State) :
    (appendTurn r s).now = s.now ∧ (appendTurn r s).pending = s.pending ∧ (appendTurn r s).fresh = s.fresh ∧
    (appendTurn r s).lastLink = s.lastLink ∧ (appendTurn r s).lastRadio = s.lastRadio ∧
    (appendTurn r s).displayPlace = s.displayPlace ∧ (appendTurn r s).settings = s.settings ∧
    (appendTurn r s).img = s.img ∧ (appendTurn r s).wav = s.wav ∧ (appendTurn r s).conv = s.conv ∧
    (appendTurn r s).eng = s.eng ∧ (appendTurn r s).pool = s.pool ∧ (appendTurn r s).keys = s.keys ∧
    (appendTurn r s).light = s.light ∧ (appendTurn r s).sup = s.sup ∧ (appendTurn r s).fetch = s.fetch ∧
    (appendTurn r s).store = s.store ∧ (appendTurn r s).content = s.content ∧ (appendTurn r s).pow = s.pow := by
  simp only [appendTurn]
  repeat' split
  all_goals simp

/-- What a key record leaves. -/
@[simp] theorem appendKey_frame (k : Key) (e : KeyEvent) (s : State) :
    (appendKey k e s).now = s.now ∧ (appendKey k e s).pending = s.pending ∧ (appendKey k e s).fresh = s.fresh ∧
    (appendKey k e s).lastLink = s.lastLink ∧ (appendKey k e s).lastRadio = s.lastRadio ∧
    (appendKey k e s).displayPlace = s.displayPlace ∧ (appendKey k e s).settings = s.settings ∧
    (appendKey k e s).img = s.img ∧ (appendKey k e s).wav = s.wav ∧ (appendKey k e s).conv = s.conv ∧
    (appendKey k e s).eng = s.eng ∧ (appendKey k e s).pool = s.pool ∧ (appendKey k e s).cache = s.cache ∧
    (appendKey k e s).light = s.light ∧ (appendKey k e s).sup = s.sup ∧ (appendKey k e s).fetch = s.fetch ∧
    (appendKey k e s).store = s.store ∧ (appendKey k e s).content = s.content ∧ (appendKey k e s).pow = s.pow := by
  simp only [appendKey]
  repeat' split
  all_goals simp

/-! ## Converter and waveforms -/

/-- What the converter's choice leaves. -/
@[simp] theorem convKick_frame (s : State) :
    (convKick s).now = s.now ∧ (convKick s).pending = s.pending ∧ (convKick s).fresh = s.fresh ∧
    (convKick s).lastLink = s.lastLink ∧ (convKick s).lastRadio = s.lastRadio ∧
    (convKick s).displayPlace = s.displayPlace ∧ (convKick s).settings = s.settings ∧ (convKick s).img = s.img ∧
    (convKick s).wav = s.wav ∧ (convKick s).eng = s.eng ∧ (convKick s).pool = s.pool ∧
    (convKick s).cache = s.cache ∧ (convKick s).keys = s.keys ∧ (convKick s).light = s.light ∧
    (convKick s).sup = s.sup ∧ (convKick s).fetch = s.fetch ∧ (convKick s).store = s.store ∧
    (convKick s).content = s.content ∧ (convKick s).pow = s.pow ∧ (convKick s).link = s.link := by
  simp only [convKick]
  repeat' split
  all_goals simp

/-- What a conversion request leaves. -/
@[simp] theorem convRequest_frame (c : Chan) (s : State) :
    (convRequest c s).now = s.now ∧ (convRequest c s).pending = s.pending ∧ (convRequest c s).fresh = s.fresh ∧
    (convRequest c s).lastLink = s.lastLink ∧ (convRequest c s).lastRadio = s.lastRadio ∧
    (convRequest c s).displayPlace = s.displayPlace ∧ (convRequest c s).settings = s.settings ∧
    (convRequest c s).img = s.img ∧ (convRequest c s).wav = s.wav ∧ (convRequest c s).eng = s.eng ∧
    (convRequest c s).pool = s.pool ∧ (convRequest c s).cache = s.cache ∧ (convRequest c s).keys = s.keys ∧
    (convRequest c s).light = s.light ∧ (convRequest c s).sup = s.sup ∧ (convRequest c s).fetch = s.fetch ∧
    (convRequest c s).store = s.store ∧ (convRequest c s).content = s.content ∧ (convRequest c s).pow = s.pow ∧
    (convRequest c s).link = s.link := by
  simp only [convRequest]
  simp

/-- What a TEMP request leaves. -/
@[simp] theorem tempRequest_frame (s : State) :
    (tempRequest s).now = s.now ∧ (tempRequest s).pending = s.pending ∧ (tempRequest s).fresh = s.fresh ∧
    (tempRequest s).lastLink = s.lastLink ∧ (tempRequest s).lastRadio = s.lastRadio ∧
    (tempRequest s).displayPlace = s.displayPlace ∧ (tempRequest s).settings = s.settings ∧
    (tempRequest s).img = s.img ∧ (tempRequest s).wav = s.wav ∧ (tempRequest s).eng = s.eng ∧
    (tempRequest s).pool = s.pool ∧ (tempRequest s).cache = s.cache ∧ (tempRequest s).keys = s.keys ∧
    (tempRequest s).light = s.light ∧ (tempRequest s).sup = s.sup ∧ (tempRequest s).fetch = s.fetch ∧
    (tempRequest s).store = s.store ∧ (tempRequest s).content = s.content ∧ (tempRequest s).pow = s.pow ∧
    (tempRequest s).link = s.link := by
  simp only [tempRequest]
  repeat' split
  all_goals simp

/-- What a TEMP demand leaves. -/
@[simp] theorem tempDemand_frame (s : State) :
    (tempDemand s).now = s.now ∧ (tempDemand s).pending = s.pending ∧ (tempDemand s).fresh = s.fresh ∧
    (tempDemand s).lastLink = s.lastLink ∧ (tempDemand s).lastRadio = s.lastRadio ∧
    (tempDemand s).displayPlace = s.displayPlace ∧ (tempDemand s).settings = s.settings ∧
    (tempDemand s).img = s.img ∧ (tempDemand s).wav = s.wav ∧ (tempDemand s).eng = s.eng ∧
    (tempDemand s).pool = s.pool ∧ (tempDemand s).cache = s.cache ∧ (tempDemand s).keys = s.keys ∧
    (tempDemand s).light = s.light ∧ (tempDemand s).sup = s.sup ∧ (tempDemand s).fetch = s.fetch ∧
    (tempDemand s).store = s.store ∧ (tempDemand s).content = s.content ∧ (tempDemand s).pow = s.pow ∧
    (tempDemand s).link = s.link := by
  simp only [tempDemand]
  repeat' split
  all_goals simp

/-- What a band move leaves. -/
@[simp] theorem applyBand_frame (t : Int) (s : State) :
    (applyBand t s).now = s.now ∧ (applyBand t s).pending = s.pending ∧ (applyBand t s).fresh = s.fresh ∧
    (applyBand t s).lastLink = s.lastLink ∧ (applyBand t s).lastRadio = s.lastRadio ∧
    (applyBand t s).displayPlace = s.displayPlace ∧ (applyBand t s).settings = s.settings ∧
    (applyBand t s).img = s.img ∧ (applyBand t s).conv = s.conv ∧ (applyBand t s).eng = s.eng ∧
    (applyBand t s).pool = s.pool ∧ (applyBand t s).cache = s.cache ∧ (applyBand t s).keys = s.keys ∧
    (applyBand t s).light = s.light ∧ (applyBand t s).sup = s.sup ∧ (applyBand t s).fetch = s.fetch ∧
    (applyBand t s).store = s.store ∧ (applyBand t s).content = s.content ∧ (applyBand t s).pow = s.pow := by
  simp only [applyBand]
  repeat' split
  all_goals simp

/-- What a range move leaves. -/
@[simp] theorem applyRange_frame (t : Int) (s : State) :
    (applyRange t s).now = s.now ∧ (applyRange t s).pending = s.pending ∧ (applyRange t s).fresh = s.fresh ∧
    (applyRange t s).lastLink = s.lastLink ∧ (applyRange t s).lastRadio = s.lastRadio ∧
    (applyRange t s).displayPlace = s.displayPlace ∧ (applyRange t s).settings = s.settings ∧
    (applyRange t s).img = s.img ∧ (applyRange t s).conv = s.conv ∧ (applyRange t s).eng = s.eng ∧
    (applyRange t s).pool = s.pool ∧ (applyRange t s).cache = s.cache ∧ (applyRange t s).keys = s.keys ∧
    (applyRange t s).light = s.light ∧ (applyRange t s).sup = s.sup ∧ (applyRange t s).fetch = s.fetch ∧
    (applyRange t s).store = s.store ∧ (applyRange t s).content = s.content ∧ (applyRange t s).pow = s.pow := by
  simp only [applyRange]
  repeat' split
  all_goals simp

/-- What a TEMP reading leaves. -/
@[simp] theorem tempReading_frame (raw : Nat) (s : State) :
    (tempReading raw s).now = s.now ∧ (tempReading raw s).pending = s.pending ∧
    (tempReading raw s).fresh = s.fresh ∧ (tempReading raw s).lastLink = s.lastLink ∧
    (tempReading raw s).lastRadio = s.lastRadio ∧ (tempReading raw s).displayPlace = s.displayPlace ∧
    (tempReading raw s).settings = s.settings ∧ (tempReading raw s).img = s.img ∧
    (tempReading raw s).conv = s.conv ∧ (tempReading raw s).eng = s.eng ∧ (tempReading raw s).pool = s.pool ∧
    (tempReading raw s).cache = s.cache ∧ (tempReading raw s).keys = s.keys ∧ (tempReading raw s).light = s.light ∧
    (tempReading raw s).sup = s.sup ∧ (tempReading raw s).fetch = s.fetch ∧ (tempReading raw s).store = s.store ∧
    (tempReading raw s).content = s.content ∧ (tempReading raw s).pow = s.pow := by
  simp only [tempReading]
  repeat' split
  all_goals simp

/-- What a waveform record changes leaves. -/
@[simp] theorem mapWave_frame (n : Nat) (f : Wave → Wave) (s : State) :
    (s.mapWave n f).now = s.now ∧ (s.mapWave n f).pending = s.pending ∧ (s.mapWave n f).fresh = s.fresh ∧
    (s.mapWave n f).lastLink = s.lastLink ∧ (s.mapWave n f).lastRadio = s.lastRadio ∧
    (s.mapWave n f).displayPlace = s.displayPlace ∧ (s.mapWave n f).settings = s.settings ∧
    (s.mapWave n f).img = s.img ∧ (s.mapWave n f).conv = s.conv ∧ (s.mapWave n f).eng = s.eng ∧
    (s.mapWave n f).pool = s.pool ∧ (s.mapWave n f).cache = s.cache ∧ (s.mapWave n f).keys = s.keys ∧
    (s.mapWave n f).light = s.light ∧ (s.mapWave n f).sup = s.sup ∧ (s.mapWave n f).fetch = s.fetch ∧
    (s.mapWave n f).store = s.store ∧ (s.mapWave n f).content = s.content ∧ (s.mapWave n f).pow = s.pow ∧
    (s.mapWave n f).link = s.link := by
  simp only [State.mapWave]
  simp

/-- What RETIRED records are freed leaves. -/
@[simp] theorem freeRetired_frame (s : State) :
    (freeRetired s).now = s.now ∧ (freeRetired s).pending = s.pending ∧ (freeRetired s).fresh = s.fresh ∧
    (freeRetired s).lastLink = s.lastLink ∧ (freeRetired s).lastRadio = s.lastRadio ∧
    (freeRetired s).displayPlace = s.displayPlace ∧ (freeRetired s).settings = s.settings ∧
    (freeRetired s).img = s.img ∧ (freeRetired s).conv = s.conv ∧ (freeRetired s).eng = s.eng ∧
    (freeRetired s).pool = s.pool ∧ (freeRetired s).cache = s.cache ∧ (freeRetired s).keys = s.keys ∧
    (freeRetired s).light = s.light ∧ (freeRetired s).sup = s.sup ∧ (freeRetired s).fetch = s.fetch ∧
    (freeRetired s).store = s.store ∧ (freeRetired s).content = s.content ∧ (freeRetired s).pow = s.pow ∧
    (freeRetired s).link = s.link := by
  simp only [freeRetired]
  simp

/-- What a waveform is unclaimed leaves. -/
@[simp] theorem unclaimWave_frame (n : Nat) (s : State) :
    (unclaimWave n s).now = s.now ∧ (unclaimWave n s).pending = s.pending ∧ (unclaimWave n s).fresh = s.fresh ∧
    (unclaimWave n s).lastLink = s.lastLink ∧ (unclaimWave n s).lastRadio = s.lastRadio ∧
    (unclaimWave n s).displayPlace = s.displayPlace ∧ (unclaimWave n s).settings = s.settings ∧
    (unclaimWave n s).img = s.img ∧ (unclaimWave n s).conv = s.conv ∧ (unclaimWave n s).eng = s.eng ∧
    (unclaimWave n s).pool = s.pool ∧ (unclaimWave n s).cache = s.cache ∧ (unclaimWave n s).keys = s.keys ∧
    (unclaimWave n s).light = s.light ∧ (unclaimWave n s).sup = s.sup ∧ (unclaimWave n s).fetch = s.fetch ∧
    (unclaimWave n s).store = s.store ∧ (unclaimWave n s).content = s.content ∧ (unclaimWave n s).pow = s.pow ∧
    (unclaimWave n s).link = s.link := by
  simp only [unclaimWave]
  simp

/-- What a lane leaves its waveform leaves. -/
@[simp] theorem leaveWave_frame (n : Nat) (s : State) :
    (leaveWave n s).now = s.now ∧ (leaveWave n s).pending = s.pending ∧ (leaveWave n s).fresh = s.fresh ∧
    (leaveWave n s).lastLink = s.lastLink ∧ (leaveWave n s).lastRadio = s.lastRadio ∧
    (leaveWave n s).displayPlace = s.displayPlace ∧ (leaveWave n s).settings = s.settings ∧
    (leaveWave n s).img = s.img ∧ (leaveWave n s).conv = s.conv ∧ (leaveWave n s).eng = s.eng ∧
    (leaveWave n s).pool = s.pool ∧ (leaveWave n s).cache = s.cache ∧ (leaveWave n s).keys = s.keys ∧
    (leaveWave n s).light = s.light ∧ (leaveWave n s).sup = s.sup ∧ (leaveWave n s).fetch = s.fetch ∧
    (leaveWave n s).store = s.store ∧ (leaveWave n s).content = s.content ∧ (leaveWave n s).pow = s.pow ∧
    (leaveWave n s).link = s.link := by
  simp only [leaveWave]
  simp

/-- What a slot is emptied leaves. -/
@[simp] theorem retireSlot_frame (m : Mode) (b : Nat) (s : State) :
    (retireSlot m b s).now = s.now ∧ (retireSlot m b s).pending = s.pending ∧ (retireSlot m b s).fresh = s.fresh ∧
    (retireSlot m b s).lastLink = s.lastLink ∧ (retireSlot m b s).lastRadio = s.lastRadio ∧
    (retireSlot m b s).displayPlace = s.displayPlace ∧ (retireSlot m b s).settings = s.settings ∧
    (retireSlot m b s).img = s.img ∧ (retireSlot m b s).conv = s.conv ∧ (retireSlot m b s).eng = s.eng ∧
    (retireSlot m b s).pool = s.pool ∧ (retireSlot m b s).cache = s.cache ∧ (retireSlot m b s).keys = s.keys ∧
    (retireSlot m b s).light = s.light ∧ (retireSlot m b s).sup = s.sup ∧ (retireSlot m b s).fetch = s.fetch ∧
    (retireSlot m b s).store = s.store ∧ (retireSlot m b s).content = s.content ∧ (retireSlot m b s).pow = s.pow ∧
    (retireSlot m b s).link = s.link := by
  simp only [retireSlot]
  simp

/-- What a load is discarded leaves. -/
@[simp] theorem discardLoad_frame (s : State) :
    (discardLoad s).now = s.now ∧ (discardLoad s).pending = s.pending ∧ (discardLoad s).fresh = s.fresh ∧
    (discardLoad s).lastLink = s.lastLink ∧ (discardLoad s).lastRadio = s.lastRadio ∧
    (discardLoad s).displayPlace = s.displayPlace ∧ (discardLoad s).settings = s.settings ∧
    (discardLoad s).img = s.img ∧ (discardLoad s).conv = s.conv ∧ (discardLoad s).eng = s.eng ∧
    (discardLoad s).pool = s.pool ∧ (discardLoad s).cache = s.cache ∧ (discardLoad s).keys = s.keys ∧
    (discardLoad s).light = s.light ∧ (discardLoad s).sup = s.sup ∧ (discardLoad s).fetch = s.fetch ∧
    (discardLoad s).store = s.store ∧ (discardLoad s).content = s.content ∧ (discardLoad s).pow = s.pow ∧
    (discardLoad s).link = s.link := by
  simp only [discardLoad]
  simp

/-! ## Arbiter -/

/-- What an update is admitted leaves. -/
@[simp] theorem appendUpdate_frame (id : Nat) (r : Rect) (m : Mode) (np : Bool) (o : Origin) (pl : Nat) (s : State) :
    (appendUpdate id r m np o pl s).now = s.now ∧ (appendUpdate id r m np o pl s).pending = s.pending ∧
    (appendUpdate id r m np o pl s).fresh = s.fresh ∧ (appendUpdate id r m np o pl s).lastLink = s.lastLink ∧
    (appendUpdate id r m np o pl s).lastRadio = s.lastRadio ∧
    (appendUpdate id r m np o pl s).displayPlace = s.displayPlace ∧
    (appendUpdate id r m np o pl s).settings = s.settings ∧ (appendUpdate id r m np o pl s).img = s.img ∧
    (appendUpdate id r m np o pl s).wav = s.wav ∧ (appendUpdate id r m np o pl s).conv = s.conv ∧
    (appendUpdate id r m np o pl s).pool = s.pool ∧ (appendUpdate id r m np o pl s).cache = s.cache ∧
    (appendUpdate id r m np o pl s).keys = s.keys ∧ (appendUpdate id r m np o pl s).light = s.light ∧
    (appendUpdate id r m np o pl s).sup = s.sup ∧ (appendUpdate id r m np o pl s).fetch = s.fetch ∧
    (appendUpdate id r m np o pl s).store = s.store ∧ (appendUpdate id r m np o pl s).content = s.content ∧
    (appendUpdate id r m np o pl s).pow = s.pow ∧ (appendUpdate id r m np o pl s).link = s.link := by
  simp only [appendUpdate]
  simp

/-- What an entry leaves the queue leaves. -/
@[simp] theorem dropEntry_frame (n : Nat) (s : State) :
    (dropEntry n s).now = s.now ∧ (dropEntry n s).pending = s.pending ∧ (dropEntry n s).fresh = s.fresh ∧
    (dropEntry n s).lastLink = s.lastLink ∧ (dropEntry n s).lastRadio = s.lastRadio ∧
    (dropEntry n s).displayPlace = s.displayPlace ∧ (dropEntry n s).settings = s.settings ∧
    (dropEntry n s).img = s.img ∧ (dropEntry n s).wav = s.wav ∧ (dropEntry n s).conv = s.conv ∧
    (dropEntry n s).pool = s.pool ∧ (dropEntry n s).cache = s.cache ∧ (dropEntry n s).keys = s.keys ∧
    (dropEntry n s).light = s.light ∧ (dropEntry n s).sup = s.sup ∧ (dropEntry n s).fetch = s.fetch ∧
    (dropEntry n s).store = s.store ∧ (dropEntry n s).content = s.content ∧ (dropEntry n s).pow = s.pow ∧
    (dropEntry n s).link = s.link := by
  simp only [dropEntry]
  simp

/-- What an entry ends leaves. -/
@[simp] theorem endEntry_frame (e : QEntry) (st : Status) (m : Mode) (p : Bool) (s : State) :
    (endEntry e st m p s).now = s.now ∧ (endEntry e st m p s).pending = s.pending ∧
    (endEntry e st m p s).fresh = s.fresh ∧ (endEntry e st m p s).lastLink = s.lastLink ∧
    (endEntry e st m p s).lastRadio = s.lastRadio ∧ (endEntry e st m p s).displayPlace = s.displayPlace ∧
    (endEntry e st m p s).settings = s.settings ∧ (endEntry e st m p s).img = s.img ∧
    (endEntry e st m p s).wav = s.wav ∧ (endEntry e st m p s).conv = s.conv ∧ (endEntry e st m p s).pool = s.pool ∧
    (endEntry e st m p s).cache = s.cache ∧ (endEntry e st m p s).keys = s.keys ∧
    (endEntry e st m p s).light = s.light ∧ (endEntry e st m p s).sup = s.sup ∧
    (endEntry e st m p s).fetch = s.fetch ∧ (endEntry e st m p s).store = s.store ∧
    (endEntry e st m p s).content = s.content ∧ (endEntry e st m p s).pow = s.pow := by
  simp only [endEntry]
  simp

/-- What the engine's claim is sent leaves. -/
@[simp] theorem sendClaim_frame (e : QEntry) (p : Pick) (s : State) :
    (sendClaim e p s).now = s.now ∧ (sendClaim e p s).pending = s.pending ∧ (sendClaim e p s).fresh = s.fresh ∧
    (sendClaim e p s).lastLink = s.lastLink ∧ (sendClaim e p s).lastRadio = s.lastRadio ∧
    (sendClaim e p s).displayPlace = s.displayPlace ∧ (sendClaim e p s).settings = s.settings ∧
    (sendClaim e p s).img = s.img ∧ (sendClaim e p s).conv = s.conv ∧ (sendClaim e p s).pool = s.pool ∧
    (sendClaim e p s).cache = s.cache ∧ (sendClaim e p s).keys = s.keys ∧ (sendClaim e p s).light = s.light ∧
    (sendClaim e p s).fetch = s.fetch ∧ (sendClaim e p s).store = s.store ∧ (sendClaim e p s).content = s.content ∧
    (sendClaim e p s).pow = s.pow ∧ (sendClaim e p s).link = s.link := by
  simp only [sendClaim]
  simp

/-- What the arbiter's looks leaves. -/
@[simp] theorem lookLoop_frame (n : Nat) (s : State) :
    (lookLoop n s).now = s.now ∧ (lookLoop n s).pending = s.pending ∧ (lookLoop n s).fresh = s.fresh ∧
    (lookLoop n s).lastLink = s.lastLink ∧ (lookLoop n s).lastRadio = s.lastRadio ∧
    (lookLoop n s).displayPlace = s.displayPlace ∧ (lookLoop n s).settings = s.settings ∧
    (lookLoop n s).img = s.img ∧ (lookLoop n s).pool = s.pool ∧ (lookLoop n s).cache = s.cache ∧
    (lookLoop n s).keys = s.keys ∧ (lookLoop n s).light = s.light ∧ (lookLoop n s).fetch = s.fetch ∧
    (lookLoop n s).store = s.store ∧ (lookLoop n s).content = s.content ∧ (lookLoop n s).pow = s.pow := by
  induction n generalizing s with
  | zero => simp [lookLoop]
  | succ n ih =>
    simp only [lookLoop]
    repeat' split
    all_goals simp [ih]

/-- What the arbiter's look leaves. -/
@[simp] theorem look_frame (s : State) :
    (look s).now = s.now ∧ (look s).pending = s.pending ∧ (look s).fresh = s.fresh ∧
    (look s).lastLink = s.lastLink ∧ (look s).lastRadio = s.lastRadio ∧ (look s).displayPlace = s.displayPlace ∧
    (look s).settings = s.settings ∧ (look s).img = s.img ∧ (look s).pool = s.pool ∧ (look s).cache = s.cache ∧
    (look s).keys = s.keys ∧ (look s).light = s.light ∧ (look s).fetch = s.fetch ∧ (look s).store = s.store ∧
    (look s).content = s.content ∧ (look s).pow = s.pow := by
  simp only [look]
  simp

/-- What the panel supply's start leaves. -/
@[simp] theorem startPanel_frame (s : State) :
    (startPanel s).now = s.now ∧ (startPanel s).pending = s.pending ∧ (startPanel s).fresh = s.fresh ∧
    (startPanel s).lastLink = s.lastLink ∧ (startPanel s).lastRadio = s.lastRadio ∧
    (startPanel s).displayPlace = s.displayPlace ∧ (startPanel s).settings = s.settings ∧
    (startPanel s).img = s.img ∧ (startPanel s).wav = s.wav ∧ (startPanel s).conv = s.conv ∧
    (startPanel s).pool = s.pool ∧ (startPanel s).cache = s.cache ∧ (startPanel s).keys = s.keys ∧
    (startPanel s).light = s.light ∧ (startPanel s).sup = s.sup ∧ (startPanel s).fetch = s.fetch ∧
    (startPanel s).store = s.store ∧ (startPanel s).content = s.content ∧ (startPanel s).pow = s.pow ∧
    (startPanel s).link = s.link := by
  simp only [startPanel]
  repeat' split
  all_goals simp

/-- What a lane's start leaves. -/
@[simp] theorem startLane_frame (s : State) :
    (startLane s).now = s.now ∧ (startLane s).pending = s.pending ∧ (startLane s).fresh = s.fresh ∧
    (startLane s).lastLink = s.lastLink ∧ (startLane s).lastRadio = s.lastRadio ∧
    (startLane s).displayPlace = s.displayPlace ∧ (startLane s).settings = s.settings ∧
    (startLane s).conv = s.conv ∧ (startLane s).pool = s.pool ∧ (startLane s).cache = s.cache ∧
    (startLane s).keys = s.keys ∧ (startLane s).light = s.light ∧ (startLane s).sup = s.sup ∧
    (startLane s).fetch = s.fetch ∧ (startLane s).store = s.store ∧ (startLane s).content = s.content ∧
    (startLane s).pow = s.pow ∧ (startLane s).link = s.link := by
  simp only [startLane]
  repeat' split
  all_goals simp

/-! ## Front light -/

/-- What a change of the light's record leaves. -/
@[simp] theorem onLight_frame (f : FrontLight → FrontLight) (s : State) :
    (s.onLight f).now = s.now ∧ (s.onLight f).pending = s.pending ∧ (s.onLight f).fresh = s.fresh ∧
    (s.onLight f).lastLink = s.lastLink ∧ (s.onLight f).lastRadio = s.lastRadio ∧
    (s.onLight f).displayPlace = s.displayPlace ∧ (s.onLight f).settings = s.settings ∧ (s.onLight f).img = s.img ∧
    (s.onLight f).wav = s.wav ∧ (s.onLight f).conv = s.conv ∧ (s.onLight f).eng = s.eng ∧
    (s.onLight f).pool = s.pool ∧ (s.onLight f).cache = s.cache ∧ (s.onLight f).keys = s.keys ∧
    (s.onLight f).sup = s.sup ∧ (s.onLight f).fetch = s.fetch ∧ (s.onLight f).store = s.store ∧
    (s.onLight f).content = s.content ∧ (s.onLight f).pow = s.pow ∧ (s.onLight f).link = s.link := by
  simp only [State.onLight]
  simp

/-- What the mix leaves. -/
@[simp] theorem lightMix_frame (s : State) :
    (lightMix s).now = s.now ∧ (lightMix s).pending = s.pending ∧ (lightMix s).fresh = s.fresh ∧
    (lightMix s).lastLink = s.lastLink ∧ (lightMix s).lastRadio = s.lastRadio ∧
    (lightMix s).displayPlace = s.displayPlace ∧ (lightMix s).settings = s.settings ∧ (lightMix s).img = s.img ∧
    (lightMix s).wav = s.wav ∧ (lightMix s).conv = s.conv ∧ (lightMix s).eng = s.eng ∧ (lightMix s).pool = s.pool ∧
    (lightMix s).cache = s.cache ∧ (lightMix s).keys = s.keys ∧ (lightMix s).sup = s.sup ∧
    (lightMix s).fetch = s.fetch ∧ (lightMix s).store = s.store ∧ (lightMix s).content = s.content ∧
    (lightMix s).pow = s.pow ∧ (lightMix s).link = s.link := by
  simp only [lightMix]
  simp

/-- What the light's state is judged leaves. -/
@[simp] theorem judgeLight_frame (s : State) :
    (judgeLight s).now = s.now ∧ (judgeLight s).pending = s.pending ∧ (judgeLight s).fresh = s.fresh ∧
    (judgeLight s).lastLink = s.lastLink ∧ (judgeLight s).lastRadio = s.lastRadio ∧
    (judgeLight s).displayPlace = s.displayPlace ∧ (judgeLight s).settings = s.settings ∧
    (judgeLight s).img = s.img ∧ (judgeLight s).wav = s.wav ∧ (judgeLight s).conv = s.conv ∧
    (judgeLight s).eng = s.eng ∧ (judgeLight s).pool = s.pool ∧ (judgeLight s).cache = s.cache ∧
    (judgeLight s).keys = s.keys ∧ (judgeLight s).sup = s.sup ∧ (judgeLight s).fetch = s.fetch ∧
    (judgeLight s).store = s.store ∧ (judgeLight s).content = s.content ∧ (judgeLight s).pow = s.pow := by
  simp only [judgeLight]
  repeat' split
  all_goals simp

/-- What the cut mark is judged leaves. -/
@[simp] theorem judgeCutMark_frame (s : State) :
    (judgeCutMark s).now = s.now ∧ (judgeCutMark s).pending = s.pending ∧ (judgeCutMark s).fresh = s.fresh ∧
    (judgeCutMark s).lastLink = s.lastLink ∧ (judgeCutMark s).lastRadio = s.lastRadio ∧
    (judgeCutMark s).displayPlace = s.displayPlace ∧ (judgeCutMark s).settings = s.settings ∧
    (judgeCutMark s).img = s.img ∧ (judgeCutMark s).wav = s.wav ∧ (judgeCutMark s).conv = s.conv ∧
    (judgeCutMark s).eng = s.eng ∧ (judgeCutMark s).pool = s.pool ∧ (judgeCutMark s).cache = s.cache ∧
    (judgeCutMark s).keys = s.keys ∧ (judgeCutMark s).light = s.light ∧ (judgeCutMark s).fetch = s.fetch ∧
    (judgeCutMark s).store = s.store ∧ (judgeCutMark s).content = s.content ∧ (judgeCutMark s).pow = s.pow := by
  simp only [judgeCutMark]
  repeat' split
  all_goals simp

/-- What the light's grant leaves. -/
@[simp] theorem setGrant_frame (g : Nat) (s : State) :
    (setGrant g s).now = s.now ∧ (setGrant g s).pending = s.pending ∧ (setGrant g s).fresh = s.fresh ∧
    (setGrant g s).lastLink = s.lastLink ∧ (setGrant g s).lastRadio = s.lastRadio ∧
    (setGrant g s).displayPlace = s.displayPlace ∧ (setGrant g s).settings = s.settings ∧
    (setGrant g s).img = s.img ∧ (setGrant g s).wav = s.wav ∧ (setGrant g s).conv = s.conv ∧
    (setGrant g s).eng = s.eng ∧ (setGrant g s).pool = s.pool ∧ (setGrant g s).cache = s.cache ∧
    (setGrant g s).keys = s.keys ∧ (setGrant g s).fetch = s.fetch ∧ (setGrant g s).store = s.store ∧
    (setGrant g s).content = s.content ∧ (setGrant g s).pow = s.pow := by
  simp only [setGrant]
  simp

/-- What the standing want leaves. -/
@[simp] theorem standingWant_frame (s : State) :
    (standingWant s).now = s.now ∧ (standingWant s).pending = s.pending ∧ (standingWant s).fresh = s.fresh ∧
    (standingWant s).lastLink = s.lastLink ∧ (standingWant s).lastRadio = s.lastRadio ∧
    (standingWant s).displayPlace = s.displayPlace ∧ (standingWant s).settings = s.settings ∧
    (standingWant s).img = s.img ∧ (standingWant s).wav = s.wav ∧ (standingWant s).conv = s.conv ∧
    (standingWant s).eng = s.eng ∧ (standingWant s).pool = s.pool ∧ (standingWant s).cache = s.cache ∧
    (standingWant s).keys = s.keys ∧ (standingWant s).fetch = s.fetch ∧ (standingWant s).store = s.store ∧
    (standingWant s).content = s.content ∧ (standingWant s).pow = s.pow := by
  simp only [standingWant]
  repeat' split
  all_goals simp

/-- What a cut of the light leaves. -/
@[simp] theorem cutLight_frame (g : Nat) (s : State) :
    (cutLight g s).now = s.now ∧ (cutLight g s).pending = s.pending ∧ (cutLight g s).fresh = s.fresh ∧
    (cutLight g s).lastLink = s.lastLink ∧ (cutLight g s).lastRadio = s.lastRadio ∧
    (cutLight g s).displayPlace = s.displayPlace ∧ (cutLight g s).settings = s.settings ∧
    (cutLight g s).img = s.img ∧ (cutLight g s).wav = s.wav ∧ (cutLight g s).conv = s.conv ∧
    (cutLight g s).eng = s.eng ∧ (cutLight g s).pool = s.pool ∧ (cutLight g s).cache = s.cache ∧
    (cutLight g s).keys = s.keys ∧ (cutLight g s).fetch = s.fetch ∧ (cutLight g s).store = s.store ∧
    (cutLight g s).content = s.content ∧ (cutLight g s).pow = s.pow := by
  simp only [cutLight]
  repeat' split
  all_goals simp

/-- What new targets leaves. -/
@[simp] theorem targetsChanged_frame (s : State) :
    (targetsChanged s).now = s.now ∧ (targetsChanged s).pending = s.pending ∧ (targetsChanged s).fresh = s.fresh ∧
    (targetsChanged s).lastLink = s.lastLink ∧ (targetsChanged s).lastRadio = s.lastRadio ∧
    (targetsChanged s).displayPlace = s.displayPlace ∧ (targetsChanged s).settings = s.settings ∧
    (targetsChanged s).img = s.img ∧ (targetsChanged s).wav = s.wav ∧ (targetsChanged s).conv = s.conv ∧
    (targetsChanged s).eng = s.eng ∧ (targetsChanged s).pool = s.pool ∧ (targetsChanged s).cache = s.cache ∧
    (targetsChanged s).keys = s.keys ∧ (targetsChanged s).sup = s.sup ∧ (targetsChanged s).fetch = s.fetch ∧
    (targetsChanged s).store = s.store ∧ (targetsChanged s).content = s.content ∧ (targetsChanged s).pow = s.pow := by
  simp only [targetsChanged]
  repeat' split
  all_goals simp

/-- What a move of the ramp leaves. -/
@[simp] theorem rampMove_frame (s : State) :
    (rampMove s).now = s.now ∧ (rampMove s).pending = s.pending ∧ (rampMove s).fresh = s.fresh ∧
    (rampMove s).lastLink = s.lastLink ∧ (rampMove s).lastRadio = s.lastRadio ∧
    (rampMove s).displayPlace = s.displayPlace ∧ (rampMove s).settings = s.settings ∧ (rampMove s).img = s.img ∧
    (rampMove s).wav = s.wav ∧ (rampMove s).conv = s.conv ∧ (rampMove s).eng = s.eng ∧ (rampMove s).pool = s.pool ∧
    (rampMove s).cache = s.cache ∧ (rampMove s).keys = s.keys ∧ (rampMove s).sup = s.sup ∧
    (rampMove s).fetch = s.fetch ∧ (rampMove s).store = s.store ∧ (rampMove s).content = s.content ∧
    (rampMove s).pow = s.pow ∧ (rampMove s).link = s.link := by
  simp only [rampMove]
  simp

/-- What the ramp's next step leaves. -/
@[simp] theorem rampNext_frame (s : State) :
    (rampNext s).now = s.now ∧ (rampNext s).pending = s.pending ∧ (rampNext s).fresh = s.fresh ∧
    (rampNext s).lastLink = s.lastLink ∧ (rampNext s).lastRadio = s.lastRadio ∧
    (rampNext s).displayPlace = s.displayPlace ∧ (rampNext s).settings = s.settings ∧ (rampNext s).img = s.img ∧
    (rampNext s).wav = s.wav ∧ (rampNext s).conv = s.conv ∧ (rampNext s).eng = s.eng ∧ (rampNext s).pool = s.pool ∧
    (rampNext s).cache = s.cache ∧ (rampNext s).keys = s.keys ∧ (rampNext s).sup = s.sup ∧
    (rampNext s).fetch = s.fetch ∧ (rampNext s).store = s.store ∧ (rampNext s).content = s.content ∧
    (rampNext s).pow = s.pow := by
  simp only [rampNext]
  repeat' split
  all_goals simp

/-- What a follow level leaves. -/
@[simp] theorem settleUpdate_frame (f : Nat) (s : State) :
    (settleUpdate f s).now = s.now ∧ (settleUpdate f s).pending = s.pending ∧ (settleUpdate f s).fresh = s.fresh ∧
    (settleUpdate f s).lastLink = s.lastLink ∧ (settleUpdate f s).lastRadio = s.lastRadio ∧
    (settleUpdate f s).displayPlace = s.displayPlace ∧ (settleUpdate f s).settings = s.settings ∧
    (settleUpdate f s).img = s.img ∧ (settleUpdate f s).wav = s.wav ∧ (settleUpdate f s).conv = s.conv ∧
    (settleUpdate f s).eng = s.eng ∧ (settleUpdate f s).pool = s.pool ∧ (settleUpdate f s).cache = s.cache ∧
    (settleUpdate f s).keys = s.keys ∧ (settleUpdate f s).sup = s.sup ∧ (settleUpdate f s).fetch = s.fetch ∧
    (settleUpdate f s).store = s.store ∧ (settleUpdate f s).content = s.content ∧ (settleUpdate f s).pow = s.pow ∧
    (settleUpdate f s).link = s.link := by
  simp only [settleUpdate]
  repeat' split
  all_goals simp

/-- What an AMB reading leaves. -/
@[simp] theorem ambReading_frame (raw : Nat) (s : State) :
    (ambReading raw s).now = s.now ∧ (ambReading raw s).pending = s.pending ∧ (ambReading raw s).fresh = s.fresh ∧
    (ambReading raw s).lastLink = s.lastLink ∧ (ambReading raw s).lastRadio = s.lastRadio ∧
    (ambReading raw s).displayPlace = s.displayPlace ∧ (ambReading raw s).settings = s.settings ∧
    (ambReading raw s).img = s.img ∧ (ambReading raw s).wav = s.wav ∧ (ambReading raw s).conv = s.conv ∧
    (ambReading raw s).eng = s.eng ∧ (ambReading raw s).pool = s.pool ∧ (ambReading raw s).cache = s.cache ∧
    (ambReading raw s).keys = s.keys ∧ (ambReading raw s).sup = s.sup ∧ (ambReading raw s).fetch = s.fetch ∧
    (ambReading raw s).store = s.store ∧ (ambReading raw s).content = s.content ∧ (ambReading raw s).pow = s.pow ∧
    (ambReading raw s).link = s.link := by
  simp only [ambReading]
  repeat' split
  all_goals simp

/-- What follow steps resume leaves. -/
@[simp] theorem followResume_frame (s : State) :
    (followResume s).now = s.now ∧ (followResume s).pending = s.pending ∧ (followResume s).fresh = s.fresh ∧
    (followResume s).lastLink = s.lastLink ∧ (followResume s).lastRadio = s.lastRadio ∧
    (followResume s).displayPlace = s.displayPlace ∧ (followResume s).settings = s.settings ∧
    (followResume s).img = s.img ∧ (followResume s).wav = s.wav ∧ (followResume s).conv = s.conv ∧
    (followResume s).eng = s.eng ∧ (followResume s).pool = s.pool ∧ (followResume s).cache = s.cache ∧
    (followResume s).keys = s.keys ∧ (followResume s).sup = s.sup ∧ (followResume s).fetch = s.fetch ∧
    (followResume s).store = s.store ∧ (followResume s).content = s.content ∧ (followResume s).pow = s.pow ∧
    (followResume s).link = s.link := by
  simp only [followResume]
  repeat' split
  all_goals simp

/-- What the drain level returns leaves. -/
@[simp] theorem restoreLight_frame (s : State) :
    (restoreLight s).now = s.now ∧ (restoreLight s).pending = s.pending ∧ (restoreLight s).fresh = s.fresh ∧
    (restoreLight s).lastLink = s.lastLink ∧ (restoreLight s).lastRadio = s.lastRadio ∧
    (restoreLight s).displayPlace = s.displayPlace ∧ (restoreLight s).settings = s.settings ∧
    (restoreLight s).img = s.img ∧ (restoreLight s).wav = s.wav ∧ (restoreLight s).conv = s.conv ∧
    (restoreLight s).eng = s.eng ∧ (restoreLight s).pool = s.pool ∧ (restoreLight s).cache = s.cache ∧
    (restoreLight s).keys = s.keys ∧ (restoreLight s).sup = s.sup ∧ (restoreLight s).fetch = s.fetch ∧
    (restoreLight s).store = s.store ∧ (restoreLight s).content = s.content ∧ (restoreLight s).pow = s.pow := by
  simp only [restoreLight]
  repeat' split
  all_goals simp

/-- What the light at a drain's start leaves. -/
@[simp] theorem lightDrainStart_frame (s : State) :
    (lightDrainStart s).now = s.now ∧ (lightDrainStart s).pending = s.pending ∧
    (lightDrainStart s).fresh = s.fresh ∧ (lightDrainStart s).lastLink = s.lastLink ∧
    (lightDrainStart s).lastRadio = s.lastRadio ∧ (lightDrainStart s).displayPlace = s.displayPlace ∧
    (lightDrainStart s).settings = s.settings ∧ (lightDrainStart s).img = s.img ∧ (lightDrainStart s).wav = s.wav ∧
    (lightDrainStart s).conv = s.conv ∧ (lightDrainStart s).eng = s.eng ∧ (lightDrainStart s).pool = s.pool ∧
    (lightDrainStart s).cache = s.cache ∧ (lightDrainStart s).keys = s.keys ∧ (lightDrainStart s).sup = s.sup ∧
    (lightDrainStart s).fetch = s.fetch ∧ (lightDrainStart s).store = s.store ∧
    (lightDrainStart s).content = s.content ∧ (lightDrainStart s).pow = s.pow := by
  simp only [lightDrainStart]
  repeat' split
  all_goals simp

/-- What the light in SLEEP leaves. -/
@[simp] theorem lightSleep_frame (s : State) :
    (lightSleep s).now = s.now ∧ (lightSleep s).pending = s.pending ∧ (lightSleep s).fresh = s.fresh ∧
    (lightSleep s).lastLink = s.lastLink ∧ (lightSleep s).lastRadio = s.lastRadio ∧
    (lightSleep s).displayPlace = s.displayPlace ∧ (lightSleep s).settings = s.settings ∧
    (lightSleep s).img = s.img ∧ (lightSleep s).wav = s.wav ∧ (lightSleep s).conv = s.conv ∧
    (lightSleep s).eng = s.eng ∧ (lightSleep s).pool = s.pool ∧ (lightSleep s).cache = s.cache ∧
    (lightSleep s).keys = s.keys ∧ (lightSleep s).sup = s.sup ∧ (lightSleep s).fetch = s.fetch ∧
    (lightSleep s).store = s.store ∧ (lightSleep s).content = s.content ∧ (lightSleep s).pow = s.pow ∧
    (lightSleep s).link = s.link := by
  simp only [lightSleep]
  simp

/-- What the outputs start leaves. -/
@[simp] theorem lightPwmStart_frame (s : State) :
    (lightPwmStart s).now = s.now ∧ (lightPwmStart s).pending = s.pending ∧ (lightPwmStart s).fresh = s.fresh ∧
    (lightPwmStart s).lastLink = s.lastLink ∧ (lightPwmStart s).lastRadio = s.lastRadio ∧
    (lightPwmStart s).displayPlace = s.displayPlace ∧ (lightPwmStart s).settings = s.settings ∧
    (lightPwmStart s).img = s.img ∧ (lightPwmStart s).wav = s.wav ∧ (lightPwmStart s).conv = s.conv ∧
    (lightPwmStart s).eng = s.eng ∧ (lightPwmStart s).pool = s.pool ∧ (lightPwmStart s).cache = s.cache ∧
    (lightPwmStart s).keys = s.keys ∧ (lightPwmStart s).sup = s.sup ∧ (lightPwmStart s).fetch = s.fetch ∧
    (lightPwmStart s).store = s.store ∧ (lightPwmStart s).content = s.content ∧ (lightPwmStart s).pow = s.pow ∧
    (lightPwmStart s).link = s.link := by
  simp only [lightPwmStart]
  simp

/-- What the ramp is armed leaves. -/
@[simp] theorem rampArm_frame (s : State) :
    (rampArm s).now = s.now ∧ (rampArm s).pending = s.pending ∧ (rampArm s).fresh = s.fresh ∧
    (rampArm s).lastLink = s.lastLink ∧ (rampArm s).lastRadio = s.lastRadio ∧
    (rampArm s).displayPlace = s.displayPlace ∧ (rampArm s).settings = s.settings ∧ (rampArm s).img = s.img ∧
    (rampArm s).wav = s.wav ∧ (rampArm s).conv = s.conv ∧ (rampArm s).eng = s.eng ∧ (rampArm s).pool = s.pool ∧
    (rampArm s).cache = s.cache ∧ (rampArm s).keys = s.keys ∧ (rampArm s).sup = s.sup ∧
    (rampArm s).fetch = s.fetch ∧ (rampArm s).store = s.store ∧ (rampArm s).content = s.content ∧
    (rampArm s).pow = s.pow ∧ (rampArm s).link = s.link := by
  simp only [rampArm]
  repeat' split
  all_goals simp

/-- What the light at a wake leaves. -/
@[simp] theorem lightWake_frame (s : State) :
    (lightWake s).now = s.now ∧ (lightWake s).pending = s.pending ∧ (lightWake s).fresh = s.fresh ∧
    (lightWake s).lastLink = s.lastLink ∧ (lightWake s).lastRadio = s.lastRadio ∧
    (lightWake s).displayPlace = s.displayPlace ∧ (lightWake s).settings = s.settings ∧ (lightWake s).img = s.img ∧
    (lightWake s).wav = s.wav ∧ (lightWake s).conv = s.conv ∧ (lightWake s).eng = s.eng ∧
    (lightWake s).pool = s.pool ∧ (lightWake s).cache = s.cache ∧ (lightWake s).keys = s.keys ∧
    (lightWake s).sup = s.sup ∧ (lightWake s).fetch = s.fetch ∧ (lightWake s).store = s.store ∧
    (lightWake s).content = s.content ∧ (lightWake s).pow = s.pow ∧ (lightWake s).link = s.link := by
  simp only [lightWake]
  simp

/-! ## Supply budget -/

/-- What an operation starts leaves. -/
@[simp] theorem startOp_frame (g : Option Nat) (s : State) :
    (startOp g s).now = s.now ∧ (startOp g s).pending = s.pending ∧ (startOp g s).fresh = s.fresh ∧
    (startOp g s).lastLink = s.lastLink ∧ (startOp g s).lastRadio = s.lastRadio ∧
    (startOp g s).displayPlace = s.displayPlace ∧ (startOp g s).settings = s.settings ∧ (startOp g s).img = s.img ∧
    (startOp g s).wav = s.wav ∧ (startOp g s).conv = s.conv ∧ (startOp g s).eng = s.eng ∧
    (startOp g s).pool = s.pool ∧ (startOp g s).cache = s.cache ∧ (startOp g s).keys = s.keys ∧
    (startOp g s).light = s.light ∧ (startOp g s).sup = s.sup ∧ (startOp g s).fetch = s.fetch ∧
    (startOp g s).content = s.content ∧ (startOp g s).pow = s.pow ∧ (startOp g s).link = s.link := by
  simp only [startOp]
  simp

/-- What the oldest claim leaves leaves. -/
@[simp] theorem dropOldest_frame (s : State) :
    (dropOldest s).now = s.now ∧ (dropOldest s).pending = s.pending ∧ (dropOldest s).fresh = s.fresh ∧
    (dropOldest s).lastLink = s.lastLink ∧ (dropOldest s).lastRadio = s.lastRadio ∧
    (dropOldest s).displayPlace = s.displayPlace ∧ (dropOldest s).settings = s.settings ∧
    (dropOldest s).img = s.img ∧ (dropOldest s).wav = s.wav ∧ (dropOldest s).conv = s.conv ∧
    (dropOldest s).eng = s.eng ∧ (dropOldest s).pool = s.pool ∧ (dropOldest s).cache = s.cache ∧
    (dropOldest s).keys = s.keys ∧ (dropOldest s).light = s.light ∧ (dropOldest s).fetch = s.fetch ∧
    (dropOldest s).store = s.store ∧ (dropOldest s).content = s.content ∧ (dropOldest s).pow = s.pow ∧
    (dropOldest s).link = s.link := by
  simp only [dropOldest]
  simp

/-- What a claimant's claims leave leaves. -/
@[simp] theorem dropClaims_frame (w : Claimant) (s : State) :
    (dropClaims w s).now = s.now ∧ (dropClaims w s).pending = s.pending ∧ (dropClaims w s).fresh = s.fresh ∧
    (dropClaims w s).lastLink = s.lastLink ∧ (dropClaims w s).lastRadio = s.lastRadio ∧
    (dropClaims w s).displayPlace = s.displayPlace ∧ (dropClaims w s).settings = s.settings ∧
    (dropClaims w s).img = s.img ∧ (dropClaims w s).wav = s.wav ∧ (dropClaims w s).conv = s.conv ∧
    (dropClaims w s).eng = s.eng ∧ (dropClaims w s).pool = s.pool ∧ (dropClaims w s).cache = s.cache ∧
    (dropClaims w s).keys = s.keys ∧ (dropClaims w s).light = s.light ∧ (dropClaims w s).fetch = s.fetch ∧
    (dropClaims w s).store = s.store ∧ (dropClaims w s).content = s.content ∧ (dropClaims w s).pow = s.pow ∧
    (dropClaims w s).link = s.link := by
  simp only [dropClaims]
  simp

/-- What a claim is granted leaves. -/
@[simp] theorem grantClaim_frame (c : Claim) (s : State) :
    (grantClaim c s).now = s.now ∧ (grantClaim c s).pending = s.pending ∧ (grantClaim c s).fresh = s.fresh ∧
    (grantClaim c s).lastLink = s.lastLink ∧ (grantClaim c s).lastRadio = s.lastRadio ∧
    (grantClaim c s).displayPlace = s.displayPlace ∧ (grantClaim c s).settings = s.settings ∧
    (grantClaim c s).pool = s.pool ∧ (grantClaim c s).cache = s.cache ∧ (grantClaim c s).keys = s.keys ∧
    (grantClaim c s).light = s.light ∧ (grantClaim c s).fetch = s.fetch ∧ (grantClaim c s).content = s.content ∧
    (grantClaim c s).pow = s.pow := by
  simp only [grantClaim]
  repeat' split
  all_goals simp

/-- What the decision pass's claims leaves. -/
@[simp] theorem passLoop_frame (n : Nat) (s : State) :
    (passLoop n s).now = s.now ∧ (passLoop n s).pending = s.pending ∧ (passLoop n s).fresh = s.fresh ∧
    (passLoop n s).lastLink = s.lastLink ∧ (passLoop n s).lastRadio = s.lastRadio ∧
    (passLoop n s).displayPlace = s.displayPlace ∧ (passLoop n s).settings = s.settings ∧
    (passLoop n s).pool = s.pool ∧ (passLoop n s).cache = s.cache ∧ (passLoop n s).keys = s.keys ∧
    (passLoop n s).fetch = s.fetch ∧ (passLoop n s).content = s.content ∧ (passLoop n s).pow = s.pow := by
  induction n generalizing s with
  | zero => simp [passLoop]
  | succ n ih =>
    simp only [passLoop]
    repeat' split
    all_goals simp [ih]

/-- What a decision pass leaves. -/
@[simp] theorem decisionPass_frame (s : State) :
    (decisionPass s).now = s.now ∧ (decisionPass s).pending = s.pending ∧ (decisionPass s).fresh = s.fresh ∧
    (decisionPass s).lastLink = s.lastLink ∧ (decisionPass s).lastRadio = s.lastRadio ∧
    (decisionPass s).displayPlace = s.displayPlace ∧ (decisionPass s).settings = s.settings ∧
    (decisionPass s).pool = s.pool ∧ (decisionPass s).cache = s.cache ∧ (decisionPass s).keys = s.keys ∧
    (decisionPass s).fetch = s.fetch ∧ (decisionPass s).content = s.content ∧ (decisionPass s).pow = s.pow := by
  simp only [decisionPass]
  simp

/-- What a look with its decision pass leaves. -/
@[simp] theorem lookPass_frame (s : State) :
    (lookPass s).now = s.now ∧ (lookPass s).pending = s.pending ∧ (lookPass s).fresh = s.fresh ∧
    (lookPass s).lastLink = s.lastLink ∧ (lookPass s).lastRadio = s.lastRadio ∧
    (lookPass s).displayPlace = s.displayPlace ∧ (lookPass s).settings = s.settings ∧ (lookPass s).pool = s.pool ∧
    (lookPass s).cache = s.cache ∧ (lookPass s).keys = s.keys ∧ (lookPass s).fetch = s.fetch ∧
    (lookPass s).content = s.content ∧ (lookPass s).pow = s.pow := by
  simp only [lookPass]
  repeat' split
  all_goals simp

/-- What the light's claim is reported leaves. -/
@[simp] theorem reportClaim_frame (s : State) :
    (reportClaim s).now = s.now ∧ (reportClaim s).pending = s.pending ∧ (reportClaim s).fresh = s.fresh ∧
    (reportClaim s).lastLink = s.lastLink ∧ (reportClaim s).lastRadio = s.lastRadio ∧
    (reportClaim s).displayPlace = s.displayPlace ∧ (reportClaim s).settings = s.settings ∧
    (reportClaim s).pool = s.pool ∧ (reportClaim s).cache = s.cache ∧ (reportClaim s).keys = s.keys ∧
    (reportClaim s).fetch = s.fetch ∧ (reportClaim s).content = s.content ∧ (reportClaim s).pow = s.pow := by
  simp only [reportClaim]
  repeat' split
  all_goals simp

/-- What the engine's claim is withdrawn leaves. -/
@[simp] theorem withdrawEngine_frame (e : QEntry) (s : State) :
    (withdrawEngine e s).now = s.now ∧ (withdrawEngine e s).pending = s.pending ∧
    (withdrawEngine e s).fresh = s.fresh ∧ (withdrawEngine e s).lastLink = s.lastLink ∧
    (withdrawEngine e s).lastRadio = s.lastRadio ∧ (withdrawEngine e s).displayPlace = s.displayPlace ∧
    (withdrawEngine e s).settings = s.settings ∧ (withdrawEngine e s).img = s.img ∧
    (withdrawEngine e s).conv = s.conv ∧ (withdrawEngine e s).eng = s.eng ∧ (withdrawEngine e s).pool = s.pool ∧
    (withdrawEngine e s).cache = s.cache ∧ (withdrawEngine e s).keys = s.keys ∧
    (withdrawEngine e s).light = s.light ∧ (withdrawEngine e s).fetch = s.fetch ∧
    (withdrawEngine e s).store = s.store ∧ (withdrawEngine e s).content = s.content ∧
    (withdrawEngine e s).pow = s.pow ∧ (withdrawEngine e s).link = s.link := by
  simp only [withdrawEngine]
  repeat' split
  all_goals simp

/-- What a ramp step leaves. -/
@[simp] theorem rampStepNow_frame (s : State) :
    (rampStepNow s).now = s.now ∧ (rampStepNow s).pending = s.pending ∧ (rampStepNow s).fresh = s.fresh ∧
    (rampStepNow s).lastLink = s.lastLink ∧ (rampStepNow s).lastRadio = s.lastRadio ∧
    (rampStepNow s).displayPlace = s.displayPlace ∧ (rampStepNow s).settings = s.settings ∧
    (rampStepNow s).pool = s.pool ∧ (rampStepNow s).cache = s.cache ∧ (rampStepNow s).keys = s.keys ∧
    (rampStepNow s).fetch = s.fetch ∧ (rampStepNow s).content = s.content ∧ (rampStepNow s).pow = s.pow := by
  simp only [rampStepNow]
  simp

/-! ## Image store and engine -/

/-- What a packet lands leaves. -/
@[simp] theorem landPacket_frame (p : HeldPacket) (s : State) :
    (landPacket p s).now = s.now ∧ (landPacket p s).pending = s.pending ∧ (landPacket p s).fresh = s.fresh ∧
    (landPacket p s).lastLink = s.lastLink ∧ (landPacket p s).lastRadio = s.lastRadio ∧
    (landPacket p s).displayPlace = s.displayPlace ∧ (landPacket p s).settings = s.settings ∧
    (landPacket p s).wav = s.wav ∧ (landPacket p s).conv = s.conv ∧ (landPacket p s).eng = s.eng ∧
    (landPacket p s).pool = s.pool ∧ (landPacket p s).cache = s.cache ∧ (landPacket p s).keys = s.keys ∧
    (landPacket p s).light = s.light ∧ (landPacket p s).sup = s.sup ∧ (landPacket p s).fetch = s.fetch ∧
    (landPacket p s).store = s.store ∧ (landPacket p s).content = s.content ∧ (landPacket p s).pow = s.pow ∧
    (landPacket p s).link = s.link := by
  simp only [landPacket]
  simp

/-- What the walk of a landing pass leaves. -/
@[simp] theorem landWalk_frame (kept ps : List HeldPacket) (s : State) :
    (landWalk kept ps s).now = s.now ∧ (landWalk kept ps s).pending = s.pending ∧
    (landWalk kept ps s).fresh = s.fresh ∧ (landWalk kept ps s).lastLink = s.lastLink ∧
    (landWalk kept ps s).lastRadio = s.lastRadio ∧ (landWalk kept ps s).displayPlace = s.displayPlace ∧
    (landWalk kept ps s).settings = s.settings ∧ (landWalk kept ps s).wav = s.wav ∧
    (landWalk kept ps s).conv = s.conv ∧ (landWalk kept ps s).eng = s.eng ∧ (landWalk kept ps s).pool = s.pool ∧
    (landWalk kept ps s).cache = s.cache ∧ (landWalk kept ps s).keys = s.keys ∧
    (landWalk kept ps s).light = s.light ∧ (landWalk kept ps s).sup = s.sup ∧
    (landWalk kept ps s).fetch = s.fetch ∧ (landWalk kept ps s).store = s.store ∧
    (landWalk kept ps s).content = s.content ∧ (landWalk kept ps s).pow = s.pow ∧ (landWalk kept ps s).link = s.link := by
  induction ps generalizing kept s with
  | nil => simp [landWalk]
  | cons p ps ih =>
    simp only [landWalk]
    split <;> simp [ih]

/-- What a TARGET packet leaves. -/
@[simp] theorem placePacket_frame (r : Request) (p : HeldPacket) (s : State) :
    (placePacket r p s).now = s.now ∧ (placePacket r p s).pending = s.pending ∧
    (placePacket r p s).fresh = s.fresh ∧ (placePacket r p s).lastLink = s.lastLink ∧
    (placePacket r p s).lastRadio = s.lastRadio ∧ (placePacket r p s).displayPlace = s.displayPlace ∧
    (placePacket r p s).settings = s.settings ∧ (placePacket r p s).wav = s.wav ∧
    (placePacket r p s).conv = s.conv ∧ (placePacket r p s).eng = s.eng ∧ (placePacket r p s).pool = s.pool ∧
    (placePacket r p s).cache = s.cache ∧ (placePacket r p s).keys = s.keys ∧ (placePacket r p s).light = s.light ∧
    (placePacket r p s).sup = s.sup ∧ (placePacket r p s).fetch = s.fetch ∧ (placePacket r p s).store = s.store ∧
    (placePacket r p s).content = s.content ∧ (placePacket r p s).pow = s.pow := by
  simp only [placePacket]
  repeat' split
  all_goals simp

/-- What a landing pass leaves. -/
@[simp] theorem landingPass_frame (s : State) :
    (landingPass s).now = s.now ∧ (landingPass s).pending = s.pending ∧ (landingPass s).fresh = s.fresh ∧
    (landingPass s).lastLink = s.lastLink ∧ (landingPass s).lastRadio = s.lastRadio ∧
    (landingPass s).displayPlace = s.displayPlace ∧ (landingPass s).settings = s.settings ∧
    (landingPass s).wav = s.wav ∧ (landingPass s).conv = s.conv ∧ (landingPass s).eng = s.eng ∧
    (landingPass s).pool = s.pool ∧ (landingPass s).cache = s.cache ∧ (landingPass s).keys = s.keys ∧
    (landingPass s).light = s.light ∧ (landingPass s).sup = s.sup ∧ (landingPass s).fetch = s.fetch ∧
    (landingPass s).store = s.store ∧ (landingPass s).content = s.content ∧ (landingPass s).pow = s.pow := by
  simp only [landingPass]
  repeat' split
  all_goals simp

/-- What a region is shown leaves. -/
@[simp] theorem showRegion_frame (r : Rect) (s : State) :
    (showRegion r s).now = s.now ∧ (showRegion r s).pending = s.pending ∧ (showRegion r s).fresh = s.fresh ∧
    (showRegion r s).lastLink = s.lastLink ∧ (showRegion r s).lastRadio = s.lastRadio ∧
    (showRegion r s).displayPlace = s.displayPlace ∧ (showRegion r s).settings = s.settings ∧
    (showRegion r s).wav = s.wav ∧ (showRegion r s).conv = s.conv ∧ (showRegion r s).eng = s.eng ∧
    (showRegion r s).pool = s.pool ∧ (showRegion r s).cache = s.cache ∧ (showRegion r s).keys = s.keys ∧
    (showRegion r s).light = s.light ∧ (showRegion r s).sup = s.sup ∧ (showRegion r s).fetch = s.fetch ∧
    (showRegion r s).store = s.store ∧ (showRegion r s).content = s.content ∧ (showRegion r s).pow = s.pow ∧
    (showRegion r s).link = s.link := by
  simp only [showRegion]
  simp

/-- What a lane is released leaves. -/
@[simp] theorem releaseLane_frame (i : Nat) (l : Lane) (st : Status) (s : State) :
    (releaseLane i l st s).now = s.now ∧ (releaseLane i l st s).pending = s.pending ∧
    (releaseLane i l st s).fresh = s.fresh ∧ (releaseLane i l st s).lastLink = s.lastLink ∧
    (releaseLane i l st s).lastRadio = s.lastRadio ∧ (releaseLane i l st s).displayPlace = s.displayPlace ∧
    (releaseLane i l st s).settings = s.settings ∧ (releaseLane i l st s).conv = s.conv ∧
    (releaseLane i l st s).pool = s.pool ∧ (releaseLane i l st s).cache = s.cache ∧
    (releaseLane i l st s).keys = s.keys ∧ (releaseLane i l st s).light = s.light ∧
    (releaseLane i l st s).sup = s.sup ∧ (releaseLane i l st s).fetch = s.fetch ∧
    (releaseLane i l st s).store = s.store ∧ (releaseLane i l st s).content = s.content ∧
    (releaseLane i l st s).pow = s.pow := by
  simp only [releaseLane]
  repeat' split
  all_goals simp

/-- What a lane ends leaves. -/
@[simp] theorem endLane_frame (i : Nat) (l : Lane) (s : State) :
    (endLane i l s).now = s.now ∧ (endLane i l s).pending = s.pending ∧ (endLane i l s).fresh = s.fresh ∧
    (endLane i l s).lastLink = s.lastLink ∧ (endLane i l s).lastRadio = s.lastRadio ∧
    (endLane i l s).displayPlace = s.displayPlace ∧ (endLane i l s).settings = s.settings ∧
    (endLane i l s).conv = s.conv ∧ (endLane i l s).pool = s.pool ∧ (endLane i l s).cache = s.cache ∧
    (endLane i l s).keys = s.keys ∧ (endLane i l s).light = s.light ∧ (endLane i l s).sup = s.sup ∧
    (endLane i l s).fetch = s.fetch ∧ (endLane i l s).store = s.store ∧ (endLane i l s).content = s.content ∧
    (endLane i l s).pow = s.pow := by
  simp only [endLane]
  simp

/-- What a lane stops leaves. -/
@[simp] theorem stopLane_frame (i : Nat) (l : Lane) (s : State) :
    (stopLane i l s).now = s.now ∧ (stopLane i l s).pending = s.pending ∧ (stopLane i l s).fresh = s.fresh ∧
    (stopLane i l s).lastLink = s.lastLink ∧ (stopLane i l s).lastRadio = s.lastRadio ∧
    (stopLane i l s).displayPlace = s.displayPlace ∧ (stopLane i l s).settings = s.settings ∧
    (stopLane i l s).conv = s.conv ∧ (stopLane i l s).pool = s.pool ∧ (stopLane i l s).cache = s.cache ∧
    (stopLane i l s).keys = s.keys ∧ (stopLane i l s).light = s.light ∧ (stopLane i l s).sup = s.sup ∧
    (stopLane i l s).fetch = s.fetch ∧ (stopLane i l s).store = s.store ∧ (stopLane i l s).content = s.content ∧
    (stopLane i l s).pow = s.pow := by
  simp only [stopLane]
  repeat' split
  all_goals simp

/-- What the waiting claim is raised leaves. -/
@[simp] theorem raiseWaiting_frame (s : State) :
    (raiseWaiting s).now = s.now ∧ (raiseWaiting s).pending = s.pending ∧ (raiseWaiting s).fresh = s.fresh ∧
    (raiseWaiting s).lastLink = s.lastLink ∧ (raiseWaiting s).lastRadio = s.lastRadio ∧
    (raiseWaiting s).displayPlace = s.displayPlace ∧ (raiseWaiting s).settings = s.settings ∧
    (raiseWaiting s).img = s.img ∧ (raiseWaiting s).wav = s.wav ∧ (raiseWaiting s).conv = s.conv ∧
    (raiseWaiting s).pool = s.pool ∧ (raiseWaiting s).cache = s.cache ∧ (raiseWaiting s).keys = s.keys ∧
    (raiseWaiting s).light = s.light ∧ (raiseWaiting s).fetch = s.fetch ∧ (raiseWaiting s).store = s.store ∧
    (raiseWaiting s).content = s.content ∧ (raiseWaiting s).pow = s.pow ∧ (raiseWaiting s).link = s.link := by
  simp only [raiseWaiting]; repeat' split
  all_goals simp

/-- What the panel supply stops leaves. -/
@[simp] theorem stopSupply_frame (s : State) :
    (stopSupply s).now = s.now ∧ (stopSupply s).pending = s.pending ∧ (stopSupply s).fresh = s.fresh ∧
    (stopSupply s).lastLink = s.lastLink ∧ (stopSupply s).lastRadio = s.lastRadio ∧
    (stopSupply s).displayPlace = s.displayPlace ∧ (stopSupply s).settings = s.settings ∧
    (stopSupply s).img = s.img ∧ (stopSupply s).wav = s.wav ∧ (stopSupply s).conv = s.conv ∧
    (stopSupply s).pool = s.pool ∧ (stopSupply s).cache = s.cache ∧ (stopSupply s).keys = s.keys ∧
    (stopSupply s).light = s.light ∧ (stopSupply s).fetch = s.fetch ∧ (stopSupply s).store = s.store ∧
    (stopSupply s).content = s.content ∧ (stopSupply s).pow = s.pow ∧ (stopSupply s).link = s.link := by
  simp only [stopSupply]
  simp

/-- What a frame opens leaves. -/
@[simp] theorem openFrame_frame (s : State) :
    (openFrame s).now = s.now ∧ (openFrame s).pending = s.pending ∧ (openFrame s).fresh = s.fresh ∧
    (openFrame s).lastLink = s.lastLink ∧ (openFrame s).lastRadio = s.lastRadio ∧
    (openFrame s).displayPlace = s.displayPlace ∧ (openFrame s).settings = s.settings ∧ (openFrame s).img = s.img ∧
    (openFrame s).wav = s.wav ∧ (openFrame s).conv = s.conv ∧ (openFrame s).pool = s.pool ∧
    (openFrame s).cache = s.cache ∧ (openFrame s).keys = s.keys ∧ (openFrame s).light = s.light ∧
    (openFrame s).sup = s.sup ∧ (openFrame s).fetch = s.fetch ∧ (openFrame s).store = s.store ∧
    (openFrame s).content = s.content ∧ (openFrame s).pow = s.pow ∧ (openFrame s).link = s.link := by
  simp only [openFrame]
  simp

/-- What what follows a lane's end leaves. -/
@[simp] theorem afterLane_frame (l : Nat × Lane) (s : State) :
    (afterLane s l).now = s.now ∧ (afterLane s l).pending = s.pending ∧ (afterLane s l).fresh = s.fresh ∧
    (afterLane s l).lastLink = s.lastLink ∧ (afterLane s l).lastRadio = s.lastRadio ∧
    (afterLane s l).displayPlace = s.displayPlace ∧ (afterLane s l).settings = s.settings ∧
    (afterLane s l).pool = s.pool ∧ (afterLane s l).cache = s.cache ∧ (afterLane s l).keys = s.keys ∧
    (afterLane s l).fetch = s.fetch ∧ (afterLane s l).content = s.content ∧ (afterLane s l).pow = s.pow := by
  simp only [afterLane]
  repeat' split
  all_goals simp

/-- What every step of a fold keeps, the fold keeps. -/
theorem foldl_keeps {α β : Type} (g : State → β) {f : State → α → State} (h : ∀ s a, g (f s a) = g s) (l : List α)
    (s : State) : g (l.foldl f s) = g s := by
  induction l generalizing s with
  | nil => rfl
  | cons a l ih => rw [List.foldl_cons, ih, h]

/-- What steps 1 and 2 of a boundary leaves. -/
@[simp] theorem endAndStop_frame (s : State) :
    (endAndStop s).now = s.now ∧ (endAndStop s).pending = s.pending ∧ (endAndStop s).fresh = s.fresh ∧
    (endAndStop s).lastLink = s.lastLink ∧ (endAndStop s).lastRadio = s.lastRadio ∧
    (endAndStop s).displayPlace = s.displayPlace ∧ (endAndStop s).settings = s.settings ∧
    (endAndStop s).conv = s.conv ∧ (endAndStop s).pool = s.pool ∧ (endAndStop s).cache = s.cache ∧
    (endAndStop s).keys = s.keys ∧ (endAndStop s).light = s.light ∧ (endAndStop s).sup = s.sup ∧
    (endAndStop s).fetch = s.fetch ∧ (endAndStop s).store = s.store ∧ (endAndStop s).content = s.content ∧
    (endAndStop s).pow = s.pow := by
  refine ⟨?_, ?_, ?_, ?_, ?_, ?_, ?_, ?_, ?_, ?_, ?_, ?_, ?_, ?_, ?_, ?_, ?_⟩
  · simp only [endAndStop]; rw [foldl_keeps State.now (by simp), foldl_keeps State.now (by simp)]
  · simp only [endAndStop]; rw [foldl_keeps State.pending (by simp), foldl_keeps State.pending (by simp)]
  · simp only [endAndStop]; rw [foldl_keeps State.fresh (by simp), foldl_keeps State.fresh (by simp)]
  · simp only [endAndStop]; rw [foldl_keeps State.lastLink (by simp), foldl_keeps State.lastLink (by simp)]
  · simp only [endAndStop]; rw [foldl_keeps State.lastRadio (by simp), foldl_keeps State.lastRadio (by simp)]
  · simp only [endAndStop]; rw [foldl_keeps State.displayPlace (by simp), foldl_keeps State.displayPlace (by simp)]
  · simp only [endAndStop]; rw [foldl_keeps State.settings (by simp), foldl_keeps State.settings (by simp)]
  · simp only [endAndStop]; rw [foldl_keeps State.conv (by simp), foldl_keeps State.conv (by simp)]
  · simp only [endAndStop]; rw [foldl_keeps State.pool (by simp), foldl_keeps State.pool (by simp)]
  · simp only [endAndStop]; rw [foldl_keeps State.cache (by simp), foldl_keeps State.cache (by simp)]
  · simp only [endAndStop]; rw [foldl_keeps State.keys (by simp), foldl_keeps State.keys (by simp)]
  · simp only [endAndStop]; rw [foldl_keeps State.light (by simp), foldl_keeps State.light (by simp)]
  · simp only [endAndStop]; rw [foldl_keeps State.sup (by simp), foldl_keeps State.sup (by simp)]
  · simp only [endAndStop]; rw [foldl_keeps State.fetch (by simp), foldl_keeps State.fetch (by simp)]
  · simp only [endAndStop]; rw [foldl_keeps State.store (by simp), foldl_keeps State.store (by simp)]
  · simp only [endAndStop]; rw [foldl_keeps State.content (by simp), foldl_keeps State.content (by simp)]
  · simp only [endAndStop]; rw [foldl_keeps State.pow (by simp), foldl_keeps State.pow (by simp)]

/-- What steps 3 and 4 of a boundary leaves. -/
@[simp] theorem joinAndOpen_frame (s : State) :
    (joinAndOpen s).now = s.now ∧ (joinAndOpen s).pending = s.pending ∧ (joinAndOpen s).fresh = s.fresh ∧
    (joinAndOpen s).lastLink = s.lastLink ∧ (joinAndOpen s).lastRadio = s.lastRadio ∧
    (joinAndOpen s).displayPlace = s.displayPlace ∧ (joinAndOpen s).settings = s.settings ∧
    (joinAndOpen s).img = s.img ∧ (joinAndOpen s).wav = s.wav ∧ (joinAndOpen s).conv = s.conv ∧
    (joinAndOpen s).pool = s.pool ∧ (joinAndOpen s).cache = s.cache ∧ (joinAndOpen s).keys = s.keys ∧
    (joinAndOpen s).light = s.light ∧ (joinAndOpen s).fetch = s.fetch ∧ (joinAndOpen s).store = s.store ∧
    (joinAndOpen s).content = s.content ∧ (joinAndOpen s).pow = s.pow ∧ (joinAndOpen s).link = s.link := by
  simp only [joinAndOpen]
  repeat' split
  all_goals simp

/-- What a frame boundary leaves. -/
@[simp] theorem boundaryNow_frame (s : State) :
    (boundaryNow s).now = s.now ∧ (boundaryNow s).pending = s.pending ∧ (boundaryNow s).fresh = s.fresh ∧
    (boundaryNow s).lastLink = s.lastLink ∧ (boundaryNow s).lastRadio = s.lastRadio ∧
    (boundaryNow s).displayPlace = s.displayPlace ∧ (boundaryNow s).settings = s.settings ∧
    (boundaryNow s).pool = s.pool ∧ (boundaryNow s).cache = s.cache ∧ (boundaryNow s).keys = s.keys ∧
    (boundaryNow s).fetch = s.fetch ∧ (boundaryNow s).content = s.content ∧ (boundaryNow s).pow = s.pow := by
  refine ⟨?_, ?_, ?_, ?_, ?_, ?_, ?_, ?_, ?_, ?_, ?_, ?_, ?_⟩
  · simp only [boundaryNow]; rw [foldl_keeps State.now (by simp)]; simp
  · simp only [boundaryNow]; rw [foldl_keeps State.pending (by simp)]; simp
  · simp only [boundaryNow]; rw [foldl_keeps State.fresh (by simp)]; simp
  · simp only [boundaryNow]; rw [foldl_keeps State.lastLink (by simp)]; simp
  · simp only [boundaryNow]; rw [foldl_keeps State.lastRadio (by simp)]; simp
  · simp only [boundaryNow]; rw [foldl_keeps State.displayPlace (by simp)]; simp
  · simp only [boundaryNow]; rw [foldl_keeps State.settings (by simp)]; simp
  · simp only [boundaryNow]; rw [foldl_keeps State.pool (by simp)]; simp
  · simp only [boundaryNow]; rw [foldl_keeps State.cache (by simp)]; simp
  · simp only [boundaryNow]; rw [foldl_keeps State.keys (by simp)]; simp
  · simp only [boundaryNow]; rw [foldl_keeps State.fetch (by simp)]; simp
  · simp only [boundaryNow]; rw [foldl_keeps State.content (by simp)]; simp
  · simp only [boundaryNow]; rw [foldl_keeps State.pow (by simp)]; simp

/-- What an entry is aborted leaves. -/
@[simp] theorem abortEntry_frame (e : QEntry) (s : State) :
    (abortEntry s e).now = s.now ∧ (abortEntry s e).pending = s.pending ∧ (abortEntry s e).fresh = s.fresh ∧
    (abortEntry s e).lastLink = s.lastLink ∧ (abortEntry s e).lastRadio = s.lastRadio ∧
    (abortEntry s e).displayPlace = s.displayPlace ∧ (abortEntry s e).settings = s.settings ∧
    (abortEntry s e).img = s.img ∧ (abortEntry s e).conv = s.conv ∧ (abortEntry s e).pool = s.pool ∧
    (abortEntry s e).cache = s.cache ∧ (abortEntry s e).keys = s.keys ∧ (abortEntry s e).light = s.light ∧
    (abortEntry s e).fetch = s.fetch ∧ (abortEntry s e).store = s.store ∧ (abortEntry s e).content = s.content ∧
    (abortEntry s e).pow = s.pow := by
  simp only [abortEntry]
  simp

/-- What ABORT leaves. -/
@[simp] theorem abortNow_frame (id : Option Nat) (s : State) :
    (abortNow id s).now = s.now ∧ (abortNow id s).pending = s.pending ∧ (abortNow id s).fresh = s.fresh ∧
    (abortNow id s).lastLink = s.lastLink ∧ (abortNow id s).lastRadio = s.lastRadio ∧
    (abortNow id s).displayPlace = s.displayPlace ∧ (abortNow id s).settings = s.settings ∧
    (abortNow id s).pool = s.pool ∧ (abortNow id s).cache = s.cache ∧ (abortNow id s).keys = s.keys ∧
    (abortNow id s).fetch = s.fetch ∧ (abortNow id s).content = s.content ∧ (abortNow id s).pow = s.pow := by
  refine ⟨?_, ?_, ?_, ?_, ?_, ?_, ?_, ?_, ?_, ?_, ?_, ?_, ?_⟩
  · simp only [abortNow]; (repeat' split) <;> simp [foldl_keeps State.now]
  · simp only [abortNow]; (repeat' split) <;> simp [foldl_keeps State.pending]
  · simp only [abortNow]; (repeat' split) <;> simp [foldl_keeps State.fresh]
  · simp only [abortNow]; (repeat' split) <;> simp [foldl_keeps State.lastLink]
  · simp only [abortNow]; (repeat' split) <;> simp [foldl_keeps State.lastRadio]
  · simp only [abortNow]; (repeat' split) <;> simp [foldl_keeps State.displayPlace]
  · simp only [abortNow]; (repeat' split) <;> simp [foldl_keeps State.settings]
  · simp only [abortNow]; (repeat' split) <;> simp [foldl_keeps State.pool]
  · simp only [abortNow]; (repeat' split) <;> simp [foldl_keeps State.cache]
  · simp only [abortNow]; (repeat' split) <;> simp [foldl_keeps State.keys]
  · simp only [abortNow]; (repeat' split) <;> simp [foldl_keeps State.fetch]
  · simp only [abortNow]; (repeat' split) <;> simp [foldl_keeps State.content]
  · simp only [abortNow]; (repeat' split) <;> simp [foldl_keeps State.pow]

/-! ## Fetch channels -/

/-- What a channel changes leaves. -/
@[simp] theorem onChannel_frame (c : Nat) (f : Channel → Channel) (s : State) :
    (s.onChannel c f).now = s.now ∧ (s.onChannel c f).pending = s.pending ∧ (s.onChannel c f).fresh = s.fresh ∧
    (s.onChannel c f).lastLink = s.lastLink ∧ (s.onChannel c f).lastRadio = s.lastRadio ∧
    (s.onChannel c f).displayPlace = s.displayPlace ∧ (s.onChannel c f).settings = s.settings ∧
    (s.onChannel c f).img = s.img ∧ (s.onChannel c f).wav = s.wav ∧ (s.onChannel c f).conv = s.conv ∧
    (s.onChannel c f).eng = s.eng ∧ (s.onChannel c f).pool = s.pool ∧ (s.onChannel c f).cache = s.cache ∧
    (s.onChannel c f).keys = s.keys ∧ (s.onChannel c f).light = s.light ∧ (s.onChannel c f).sup = s.sup ∧
    (s.onChannel c f).store = s.store ∧ (s.onChannel c f).content = s.content ∧ (s.onChannel c f).pow = s.pow ∧
    (s.onChannel c f).link = s.link := by
  simp only [State.onChannel]
  simp

/-- What a credit is granted leaves. -/
@[simp] theorem grantCredit_frame (c : Nat) (s : State) :
    (grantCredit c s).now = s.now ∧ (grantCredit c s).pending = s.pending ∧ (grantCredit c s).fresh = s.fresh ∧
    (grantCredit c s).lastLink = s.lastLink ∧ (grantCredit c s).lastRadio = s.lastRadio ∧
    (grantCredit c s).displayPlace = s.displayPlace ∧ (grantCredit c s).settings = s.settings ∧
    (grantCredit c s).img = s.img ∧ (grantCredit c s).wav = s.wav ∧ (grantCredit c s).conv = s.conv ∧
    (grantCredit c s).eng = s.eng ∧ (grantCredit c s).cache = s.cache ∧ (grantCredit c s).keys = s.keys ∧
    (grantCredit c s).light = s.light ∧ (grantCredit c s).sup = s.sup ∧ (grantCredit c s).store = s.store ∧
    (grantCredit c s).content = s.content ∧ (grantCredit c s).pow = s.pow ∧ (grantCredit c s).link = s.link := by
  simp only [grantCredit]
  simp

/-- What the credits of a point leaves. -/
@[simp] theorem creditLoop_frame (n : Nat) (s : State) :
    (creditLoop n s).now = s.now ∧ (creditLoop n s).pending = s.pending ∧ (creditLoop n s).fresh = s.fresh ∧
    (creditLoop n s).lastLink = s.lastLink ∧ (creditLoop n s).lastRadio = s.lastRadio ∧
    (creditLoop n s).displayPlace = s.displayPlace ∧ (creditLoop n s).settings = s.settings ∧
    (creditLoop n s).img = s.img ∧ (creditLoop n s).wav = s.wav ∧ (creditLoop n s).conv = s.conv ∧
    (creditLoop n s).eng = s.eng ∧ (creditLoop n s).cache = s.cache ∧ (creditLoop n s).keys = s.keys ∧
    (creditLoop n s).light = s.light ∧ (creditLoop n s).sup = s.sup ∧ (creditLoop n s).store = s.store ∧
    (creditLoop n s).content = s.content ∧ (creditLoop n s).pow = s.pow ∧ (creditLoop n s).link = s.link := by
  induction n generalizing s with
  | zero => simp [creditLoop]
  | succ n ih =>
    simp only [creditLoop]
    repeat' split
    all_goals simp [ih]

/-- What a credit point leaves. -/
@[simp] theorem creditPoint_frame (s : State) :
    (creditPoint s).now = s.now ∧ (creditPoint s).pending = s.pending ∧ (creditPoint s).fresh = s.fresh ∧
    (creditPoint s).lastLink = s.lastLink ∧ (creditPoint s).lastRadio = s.lastRadio ∧
    (creditPoint s).displayPlace = s.displayPlace ∧ (creditPoint s).settings = s.settings ∧
    (creditPoint s).img = s.img ∧ (creditPoint s).wav = s.wav ∧ (creditPoint s).conv = s.conv ∧
    (creditPoint s).eng = s.eng ∧ (creditPoint s).cache = s.cache ∧ (creditPoint s).keys = s.keys ∧
    (creditPoint s).light = s.light ∧ (creditPoint s).sup = s.sup ∧ (creditPoint s).store = s.store ∧
    (creditPoint s).content = s.content ∧ (creditPoint s).pow = s.pow ∧ (creditPoint s).link = s.link := by
  simp only [creditPoint]
  simp

/-- What a channel's slabs are freed leaves. -/
@[simp] theorem freeChannel_frame (c : Nat) (s : State) :
    (freeChannel c s).now = s.now ∧ (freeChannel c s).pending = s.pending ∧ (freeChannel c s).fresh = s.fresh ∧
    (freeChannel c s).lastLink = s.lastLink ∧ (freeChannel c s).lastRadio = s.lastRadio ∧
    (freeChannel c s).displayPlace = s.displayPlace ∧ (freeChannel c s).settings = s.settings ∧
    (freeChannel c s).img = s.img ∧ (freeChannel c s).wav = s.wav ∧ (freeChannel c s).conv = s.conv ∧
    (freeChannel c s).eng = s.eng ∧ (freeChannel c s).cache = s.cache ∧ (freeChannel c s).keys = s.keys ∧
    (freeChannel c s).light = s.light ∧ (freeChannel c s).sup = s.sup ∧ (freeChannel c s).fetch = s.fetch ∧
    (freeChannel c s).store = s.store ∧ (freeChannel c s).content = s.content ∧ (freeChannel c s).pow = s.pow ∧
    (freeChannel c s).link = s.link := by
  simp only [freeChannel]
  simp

/-- What a chunk's slab is freed leaves. -/
@[simp] theorem freeChunk_frame (c i : Nat) (s : State) :
    (freeChunk c i s).now = s.now ∧ (freeChunk c i s).pending = s.pending ∧ (freeChunk c i s).fresh = s.fresh ∧
    (freeChunk c i s).lastLink = s.lastLink ∧ (freeChunk c i s).lastRadio = s.lastRadio ∧
    (freeChunk c i s).displayPlace = s.displayPlace ∧ (freeChunk c i s).settings = s.settings ∧
    (freeChunk c i s).img = s.img ∧ (freeChunk c i s).wav = s.wav ∧ (freeChunk c i s).conv = s.conv ∧
    (freeChunk c i s).eng = s.eng ∧ (freeChunk c i s).cache = s.cache ∧ (freeChunk c i s).keys = s.keys ∧
    (freeChunk c i s).light = s.light ∧ (freeChunk c i s).sup = s.sup ∧ (freeChunk c i s).fetch = s.fetch ∧
    (freeChunk c i s).store = s.store ∧ (freeChunk c i s).content = s.content ∧ (freeChunk c i s).pow = s.pow ∧
    (freeChunk c i s).link = s.link := by
  simp only [freeChunk]
  simp

/-- What a channel closes leaves. -/
@[simp] theorem becomeClosed_frame (c : Nat) (s : State) :
    (becomeClosed c s).now = s.now ∧ (becomeClosed c s).pending = s.pending ∧ (becomeClosed c s).fresh = s.fresh ∧
    (becomeClosed c s).lastLink = s.lastLink ∧ (becomeClosed c s).lastRadio = s.lastRadio ∧
    (becomeClosed c s).displayPlace = s.displayPlace ∧ (becomeClosed c s).settings = s.settings ∧
    (becomeClosed c s).img = s.img ∧ (becomeClosed c s).wav = s.wav ∧ (becomeClosed c s).conv = s.conv ∧
    (becomeClosed c s).eng = s.eng ∧ (becomeClosed c s).cache = s.cache ∧ (becomeClosed c s).keys = s.keys ∧
    (becomeClosed c s).light = s.light ∧ (becomeClosed c s).sup = s.sup ∧ (becomeClosed c s).store = s.store ∧
    (becomeClosed c s).content = s.content ∧ (becomeClosed c s).pow = s.pow := by
  simp only [becomeClosed]
  simp

/-- What a CLOSING channel's check leaves. -/
@[simp] theorem closingCheck_frame (c : Nat) (s : State) :
    (closingCheck c s).now = s.now ∧ (closingCheck c s).pending = s.pending ∧ (closingCheck c s).fresh = s.fresh ∧
    (closingCheck c s).lastLink = s.lastLink ∧ (closingCheck c s).lastRadio = s.lastRadio ∧
    (closingCheck c s).displayPlace = s.displayPlace ∧ (closingCheck c s).settings = s.settings ∧
    (closingCheck c s).img = s.img ∧ (closingCheck c s).wav = s.wav ∧ (closingCheck c s).conv = s.conv ∧
    (closingCheck c s).eng = s.eng ∧ (closingCheck c s).cache = s.cache ∧ (closingCheck c s).keys = s.keys ∧
    (closingCheck c s).light = s.light ∧ (closingCheck c s).sup = s.sup ∧ (closingCheck c s).store = s.store ∧
    (closingCheck c s).content = s.content ∧ (closingCheck c s).pow = s.pow := by
  simp only [closingCheck]
  repeat' split
  all_goals simp

/-- What a channel fails leaves. -/
@[simp] theorem failCore_frame (c : Nat) (r : FailReason) (s : State) :
    (failCore c r s).now = s.now ∧ (failCore c r s).pending = s.pending ∧ (failCore c r s).fresh = s.fresh ∧
    (failCore c r s).lastLink = s.lastLink ∧ (failCore c r s).lastRadio = s.lastRadio ∧
    (failCore c r s).displayPlace = s.displayPlace ∧ (failCore c r s).settings = s.settings ∧
    (failCore c r s).img = s.img ∧ (failCore c r s).wav = s.wav ∧ (failCore c r s).conv = s.conv ∧
    (failCore c r s).eng = s.eng ∧ (failCore c r s).cache = s.cache ∧ (failCore c r s).keys = s.keys ∧
    (failCore c r s).light = s.light ∧ (failCore c r s).sup = s.sup ∧ (failCore c r s).store = s.store ∧
    (failCore c r s).content = s.content ∧ (failCore c r s).pow = s.pow := by
  simp only [failCore]
  repeat' split
  all_goals simp

/-- What a chunk is marked BAD leaves. -/
@[simp] theorem markBad_frame (c i : Nat) (s : State) :
    (markBad c i s).now = s.now ∧ (markBad c i s).pending = s.pending ∧ (markBad c i s).fresh = s.fresh ∧
    (markBad c i s).lastLink = s.lastLink ∧ (markBad c i s).lastRadio = s.lastRadio ∧
    (markBad c i s).displayPlace = s.displayPlace ∧ (markBad c i s).settings = s.settings ∧
    (markBad c i s).img = s.img ∧ (markBad c i s).wav = s.wav ∧ (markBad c i s).conv = s.conv ∧
    (markBad c i s).eng = s.eng ∧ (markBad c i s).pool = s.pool ∧ (markBad c i s).cache = s.cache ∧
    (markBad c i s).keys = s.keys ∧ (markBad c i s).light = s.light ∧ (markBad c i s).sup = s.sup ∧
    (markBad c i s).store = s.store ∧ (markBad c i s).content = s.content ∧ (markBad c i s).pow = s.pow ∧
    (markBad c i s).link = s.link := by
  simp only [markBad]
  simp

/-- What a chunk is stored leaves. -/
@[simp] theorem chunkStored_frame (c i : Nat) (s : State) :
    (chunkStored c i s).now = s.now ∧ (chunkStored c i s).pending = s.pending ∧
    (chunkStored c i s).fresh = s.fresh ∧ (chunkStored c i s).lastLink = s.lastLink ∧
    (chunkStored c i s).lastRadio = s.lastRadio ∧ (chunkStored c i s).displayPlace = s.displayPlace ∧
    (chunkStored c i s).settings = s.settings ∧ (chunkStored c i s).img = s.img ∧ (chunkStored c i s).wav = s.wav ∧
    (chunkStored c i s).conv = s.conv ∧ (chunkStored c i s).eng = s.eng ∧ (chunkStored c i s).cache = s.cache ∧
    (chunkStored c i s).keys = s.keys ∧ (chunkStored c i s).light = s.light ∧ (chunkStored c i s).sup = s.sup ∧
    (chunkStored c i s).store = s.store ∧ (chunkStored c i s).content = s.content ∧ (chunkStored c i s).pow = s.pow := by
  simp only [chunkStored]
  repeat' split
  all_goals simp

/-- What an erase's outcome leaves. -/
@[simp] theorem eraseOutcome_frame (c : Nat) (e : OpEnd) (s : State) :
    (eraseOutcome c e s).now = s.now ∧ (eraseOutcome c e s).pending = s.pending ∧
    (eraseOutcome c e s).fresh = s.fresh ∧ (eraseOutcome c e s).lastLink = s.lastLink ∧
    (eraseOutcome c e s).lastRadio = s.lastRadio ∧ (eraseOutcome c e s).displayPlace = s.displayPlace ∧
    (eraseOutcome c e s).settings = s.settings ∧ (eraseOutcome c e s).img = s.img ∧
    (eraseOutcome c e s).wav = s.wav ∧ (eraseOutcome c e s).conv = s.conv ∧ (eraseOutcome c e s).eng = s.eng ∧
    (eraseOutcome c e s).cache = s.cache ∧ (eraseOutcome c e s).keys = s.keys ∧
    (eraseOutcome c e s).light = s.light ∧ (eraseOutcome c e s).sup = s.sup ∧
    (eraseOutcome c e s).store = s.store ∧ (eraseOutcome c e s).content = s.content ∧
    (eraseOutcome c e s).pow = s.pow := by
  cases e <;> simp only [eraseOutcome]
  all_goals (try split)
  all_goals simp

/-- What a program's outcome leaves. -/
@[simp] theorem programOutcome_frame (c i : Nat) (e : OpEnd) (s : State) :
    (programOutcome c i e s).now = s.now ∧ (programOutcome c i e s).pending = s.pending ∧
    (programOutcome c i e s).fresh = s.fresh ∧ (programOutcome c i e s).lastLink = s.lastLink ∧
    (programOutcome c i e s).lastRadio = s.lastRadio ∧ (programOutcome c i e s).displayPlace = s.displayPlace ∧
    (programOutcome c i e s).settings = s.settings ∧ (programOutcome c i e s).img = s.img ∧
    (programOutcome c i e s).wav = s.wav ∧ (programOutcome c i e s).conv = s.conv ∧
    (programOutcome c i e s).eng = s.eng ∧ (programOutcome c i e s).cache = s.cache ∧
    (programOutcome c i e s).keys = s.keys ∧ (programOutcome c i e s).light = s.light ∧
    (programOutcome c i e s).sup = s.sup ∧ (programOutcome c i e s).store = s.store ∧
    (programOutcome c i e s).content = s.content ∧ (programOutcome c i e s).pow = s.pow := by
  cases e <;> simp only [programOutcome]
  all_goals (try split)
  all_goals simp

/-- What the slot empties leaves. -/
@[simp] theorem emptySlot_frame (e : OpEnd) (s : State) :
    (emptySlot e s).now = s.now ∧ (emptySlot e s).pending = s.pending ∧ (emptySlot e s).fresh = s.fresh ∧
    (emptySlot e s).lastLink = s.lastLink ∧ (emptySlot e s).lastRadio = s.lastRadio ∧
    (emptySlot e s).displayPlace = s.displayPlace ∧ (emptySlot e s).settings = s.settings ∧
    (emptySlot e s).img = s.img ∧ (emptySlot e s).wav = s.wav ∧ (emptySlot e s).conv = s.conv ∧
    (emptySlot e s).eng = s.eng ∧ (emptySlot e s).pool = s.pool ∧ (emptySlot e s).cache = s.cache ∧
    (emptySlot e s).keys = s.keys ∧ (emptySlot e s).light = s.light ∧ (emptySlot e s).sup = s.sup ∧
    (emptySlot e s).store = s.store ∧ (emptySlot e s).content = s.content ∧ (emptySlot e s).pow = s.pow ∧
    (emptySlot e s).link = s.link := by
  simp only [emptySlot]
  simp

/-- What an outcome of the slot leaves. -/
@[simp] theorem fetchOutcome_frame (e : OpEnd) (s : State) :
    (fetchOutcome e s).now = s.now ∧ (fetchOutcome e s).pending = s.pending ∧ (fetchOutcome e s).fresh = s.fresh ∧
    (fetchOutcome e s).lastLink = s.lastLink ∧ (fetchOutcome e s).lastRadio = s.lastRadio ∧
    (fetchOutcome e s).displayPlace = s.displayPlace ∧ (fetchOutcome e s).settings = s.settings ∧
    (fetchOutcome e s).img = s.img ∧ (fetchOutcome e s).wav = s.wav ∧ (fetchOutcome e s).conv = s.conv ∧
    (fetchOutcome e s).eng = s.eng ∧ (fetchOutcome e s).cache = s.cache ∧ (fetchOutcome e s).keys = s.keys ∧
    (fetchOutcome e s).light = s.light ∧ (fetchOutcome e s).sup = s.sup ∧ (fetchOutcome e s).store = s.store ∧
    (fetchOutcome e s).content = s.content ∧ (fetchOutcome e s).pow = s.pow := by
  simp only [fetchOutcome]
  repeat' split
  all_goals simp

/-- What the slot is filled leaves. -/
@[simp] theorem fillSlot_frame (c : Nat) (k : Option Nat) (s : State) :
    (fillSlot c k s).now = s.now ∧ (fillSlot c k s).pending = s.pending ∧ (fillSlot c k s).fresh = s.fresh ∧
    (fillSlot c k s).lastLink = s.lastLink ∧ (fillSlot c k s).lastRadio = s.lastRadio ∧
    (fillSlot c k s).displayPlace = s.displayPlace ∧ (fillSlot c k s).settings = s.settings ∧
    (fillSlot c k s).img = s.img ∧ (fillSlot c k s).wav = s.wav ∧ (fillSlot c k s).conv = s.conv ∧
    (fillSlot c k s).eng = s.eng ∧ (fillSlot c k s).pool = s.pool ∧ (fillSlot c k s).cache = s.cache ∧
    (fillSlot c k s).keys = s.keys ∧ (fillSlot c k s).light = s.light ∧ (fillSlot c k s).sup = s.sup ∧
    (fillSlot c k s).store = s.store ∧ (fillSlot c k s).content = s.content ∧ (fillSlot c k s).pow = s.pow ∧
    (fillSlot c k s).link = s.link := by
  simp only [fillSlot]
  repeat' split
  all_goals simp

/-! ## Book store -/

/-- What a change of the store's record leaves. -/
@[simp] theorem onStore_frame (f : Store → Store) (s : State) :
    (s.onStore f).now = s.now ∧ (s.onStore f).pending = s.pending ∧ (s.onStore f).fresh = s.fresh ∧
    (s.onStore f).lastLink = s.lastLink ∧ (s.onStore f).lastRadio = s.lastRadio ∧
    (s.onStore f).displayPlace = s.displayPlace ∧ (s.onStore f).settings = s.settings ∧ (s.onStore f).img = s.img ∧
    (s.onStore f).wav = s.wav ∧ (s.onStore f).conv = s.conv ∧ (s.onStore f).eng = s.eng ∧
    (s.onStore f).pool = s.pool ∧ (s.onStore f).cache = s.cache ∧ (s.onStore f).keys = s.keys ∧
    (s.onStore f).light = s.light ∧ (s.onStore f).sup = s.sup ∧ (s.onStore f).fetch = s.fetch ∧
    (s.onStore f).content = s.content ∧ (s.onStore f).pow = s.pow ∧ (s.onStore f).link = s.link := by
  simp only [State.onStore]
  simp

/-- What an operation joins the queue leaves. -/
@[simp] theorem joinQueue_frame (o : OpSource) (k : OpKind) (s : State) :
    (joinQueue o k s).now = s.now ∧ (joinQueue o k s).pending = s.pending ∧ (joinQueue o k s).fresh = s.fresh ∧
    (joinQueue o k s).lastLink = s.lastLink ∧ (joinQueue o k s).lastRadio = s.lastRadio ∧
    (joinQueue o k s).displayPlace = s.displayPlace ∧ (joinQueue o k s).settings = s.settings ∧
    (joinQueue o k s).img = s.img ∧ (joinQueue o k s).wav = s.wav ∧ (joinQueue o k s).conv = s.conv ∧
    (joinQueue o k s).eng = s.eng ∧ (joinQueue o k s).pool = s.pool ∧ (joinQueue o k s).cache = s.cache ∧
    (joinQueue o k s).keys = s.keys ∧ (joinQueue o k s).light = s.light ∧ (joinQueue o k s).sup = s.sup ∧
    (joinQueue o k s).fetch = s.fetch ∧ (joinQueue o k s).content = s.content ∧ (joinQueue o k s).pow = s.pow ∧
    (joinQueue o k s).link = s.link := by
  simp only [joinQueue]
  simp

/-- What an outcome is delivered leaves. -/
@[simp] theorem deliver_frame (o : Op) (e : OpEnd) (b : List Byte) (s : State) :
    (deliver o e b s).now = s.now ∧ (deliver o e b s).pending = s.pending ∧ (deliver o e b s).fresh = s.fresh ∧
    (deliver o e b s).lastLink = s.lastLink ∧ (deliver o e b s).lastRadio = s.lastRadio ∧
    (deliver o e b s).displayPlace = s.displayPlace ∧ (deliver o e b s).settings = s.settings ∧
    (deliver o e b s).img = s.img ∧ (deliver o e b s).wav = s.wav ∧ (deliver o e b s).conv = s.conv ∧
    (deliver o e b s).eng = s.eng ∧ (deliver o e b s).cache = s.cache ∧ (deliver o e b s).keys = s.keys ∧
    (deliver o e b s).light = s.light ∧ (deliver o e b s).sup = s.sup ∧ (deliver o e b s).store = s.store ∧
    (deliver o e b s).content = s.content ∧ (deliver o e b s).pow = s.pow := by
  simp only [deliver]
  repeat' split
  all_goals simp

/-- What the store's claim is sent leaves. -/
@[simp] theorem sendStoreClaim_frame (o : Op) (s : State) :
    (sendStoreClaim o s).now = s.now ∧ (sendStoreClaim o s).pending = s.pending ∧
    (sendStoreClaim o s).fresh = s.fresh ∧ (sendStoreClaim o s).lastLink = s.lastLink ∧
    (sendStoreClaim o s).lastRadio = s.lastRadio ∧ (sendStoreClaim o s).displayPlace = s.displayPlace ∧
    (sendStoreClaim o s).settings = s.settings ∧ (sendStoreClaim o s).pool = s.pool ∧
    (sendStoreClaim o s).cache = s.cache ∧ (sendStoreClaim o s).keys = s.keys ∧
    (sendStoreClaim o s).fetch = s.fetch ∧ (sendStoreClaim o s).content = s.content ∧
    (sendStoreClaim o s).pow = s.pow := by
  simp only [sendStoreClaim]
  simp

/-- What the store's selections leaves. -/
@[simp] theorem selectLoop_frame (n : Nat) (s : State) :
    (selectLoop n s).now = s.now ∧ (selectLoop n s).pending = s.pending ∧ (selectLoop n s).fresh = s.fresh ∧
    (selectLoop n s).lastLink = s.lastLink ∧ (selectLoop n s).lastRadio = s.lastRadio ∧
    (selectLoop n s).displayPlace = s.displayPlace ∧ (selectLoop n s).settings = s.settings ∧
    (selectLoop n s).cache = s.cache ∧ (selectLoop n s).keys = s.keys ∧ (selectLoop n s).content = s.content ∧
    (selectLoop n s).pow = s.pow := by
  induction n generalizing s with
  | zero => simp [selectLoop]
  | succ n ih =>
    simp only [selectLoop]
    repeat' split
    all_goals simp [ih]

/-- What a selection point leaves. -/
@[simp] theorem selectPoint_frame (s : State) :
    (selectPoint s).now = s.now ∧ (selectPoint s).pending = s.pending ∧ (selectPoint s).fresh = s.fresh ∧
    (selectPoint s).lastLink = s.lastLink ∧ (selectPoint s).lastRadio = s.lastRadio ∧
    (selectPoint s).displayPlace = s.displayPlace ∧ (selectPoint s).settings = s.settings ∧
    (selectPoint s).cache = s.cache ∧ (selectPoint s).keys = s.keys ∧ (selectPoint s).content = s.content ∧
    (selectPoint s).pow = s.pow := by
  simp only [selectPoint]
  simp

/-- What the slot's choices leaves. -/
@[simp] theorem scheduleLoop_frame (n : Nat) (s : State) :
    (scheduleLoop n s).now = s.now ∧ (scheduleLoop n s).pending = s.pending ∧ (scheduleLoop n s).fresh = s.fresh ∧
    (scheduleLoop n s).lastLink = s.lastLink ∧ (scheduleLoop n s).lastRadio = s.lastRadio ∧
    (scheduleLoop n s).displayPlace = s.displayPlace ∧ (scheduleLoop n s).settings = s.settings ∧
    (scheduleLoop n s).img = s.img ∧ (scheduleLoop n s).wav = s.wav ∧ (scheduleLoop n s).conv = s.conv ∧
    (scheduleLoop n s).eng = s.eng ∧ (scheduleLoop n s).cache = s.cache ∧ (scheduleLoop n s).keys = s.keys ∧
    (scheduleLoop n s).light = s.light ∧ (scheduleLoop n s).sup = s.sup ∧ (scheduleLoop n s).content = s.content ∧
    (scheduleLoop n s).pow = s.pow := by
  induction n generalizing s with
  | zero => simp [scheduleLoop]
  | succ n ih =>
    simp only [scheduleLoop]
    repeat' split
    all_goals simp [ih]

/-- What a scheduling point leaves. -/
@[simp] theorem schedulePoint_frame (s : State) :
    (schedulePoint s).now = s.now ∧ (schedulePoint s).pending = s.pending ∧ (schedulePoint s).fresh = s.fresh ∧
    (schedulePoint s).lastLink = s.lastLink ∧ (schedulePoint s).lastRadio = s.lastRadio ∧
    (schedulePoint s).displayPlace = s.displayPlace ∧ (schedulePoint s).settings = s.settings ∧
    (schedulePoint s).cache = s.cache ∧ (schedulePoint s).keys = s.keys ∧ (schedulePoint s).content = s.content ∧
    (schedulePoint s).pow = s.pow := by
  simp only [schedulePoint]
  simp

/-- What what follows an outcome leaves. -/
@[simp] theorem afterOutcome_frame (o : Op) (s : State) :
    (afterOutcome o s).now = s.now ∧ (afterOutcome o s).pending = s.pending ∧ (afterOutcome o s).fresh = s.fresh ∧
    (afterOutcome o s).lastLink = s.lastLink ∧ (afterOutcome o s).lastRadio = s.lastRadio ∧
    (afterOutcome o s).displayPlace = s.displayPlace ∧ (afterOutcome o s).settings = s.settings ∧
    (afterOutcome o s).cache = s.cache ∧ (afterOutcome o s).keys = s.keys ∧
    (afterOutcome o s).content = s.content ∧ (afterOutcome o s).pow = s.pow := by
  simp only [afterOutcome]
  repeat' split
  all_goals simp

/-- What an operation leaves the flash leaves. -/
@[simp] theorem clearOp_frame (f : FlashState) (s : State) :
    (clearOp f s).now = s.now ∧ (clearOp f s).pending = s.pending ∧ (clearOp f s).fresh = s.fresh ∧
    (clearOp f s).lastLink = s.lastLink ∧ (clearOp f s).lastRadio = s.lastRadio ∧
    (clearOp f s).displayPlace = s.displayPlace ∧ (clearOp f s).settings = s.settings ∧
    (clearOp f s).pool = s.pool ∧ (clearOp f s).cache = s.cache ∧ (clearOp f s).keys = s.keys ∧
    (clearOp f s).fetch = s.fetch ∧ (clearOp f s).content = s.content ∧ (clearOp f s).pow = s.pow := by
  simp only [clearOp]
  repeat' split
  all_goals simp

/-- What an operation ends leaves. -/
@[simp] theorem endOp_frame (o : Op) (e : OpEnd) (b : List Byte) (s : State) :
    (endOp o e b s).now = s.now ∧ (endOp o e b s).pending = s.pending ∧ (endOp o e b s).fresh = s.fresh ∧
    (endOp o e b s).lastLink = s.lastLink ∧ (endOp o e b s).lastRadio = s.lastRadio ∧
    (endOp o e b s).displayPlace = s.displayPlace ∧ (endOp o e b s).settings = s.settings ∧
    (endOp o e b s).cache = s.cache ∧ (endOp o e b s).keys = s.keys ∧ (endOp o e b s).content = s.content ∧
    (endOp o e b s).pow = s.pow := by
  simp only [endOp]
  simp

/-- What an operation ends TIMEOUT leaves. -/
@[simp] theorem endTimeout_frame (o : Op) (s : State) :
    (endTimeout o s).now = s.now ∧ (endTimeout o s).pending = s.pending ∧ (endTimeout o s).fresh = s.fresh ∧
    (endTimeout o s).lastLink = s.lastLink ∧ (endTimeout o s).lastRadio = s.lastRadio ∧
    (endTimeout o s).displayPlace = s.displayPlace ∧ (endTimeout o s).settings = s.settings ∧
    (endTimeout o s).cache = s.cache ∧ (endTimeout o s).keys = s.keys ∧ (endTimeout o s).content = s.content ∧
    (endTimeout o s).pow = s.pow := by
  simp only [endTimeout]
  simp

/-- What bytes become unknown leaves. -/
@[simp] theorem freeRange_frame (a n : Nat) (s : State) :
    (freeRange a n s).now = s.now ∧ (freeRange a n s).pending = s.pending ∧
    (freeRange a n s).lastLink = s.lastLink ∧ (freeRange a n s).lastRadio = s.lastRadio ∧
    (freeRange a n s).displayPlace = s.displayPlace ∧ (freeRange a n s).settings = s.settings ∧
    (freeRange a n s).img = s.img ∧ (freeRange a n s).wav = s.wav ∧ (freeRange a n s).conv = s.conv ∧
    (freeRange a n s).eng = s.eng ∧ (freeRange a n s).pool = s.pool ∧ (freeRange a n s).cache = s.cache ∧
    (freeRange a n s).keys = s.keys ∧ (freeRange a n s).light = s.light ∧ (freeRange a n s).sup = s.sup ∧
    (freeRange a n s).fetch = s.fetch ∧ (freeRange a n s).store = s.store ∧ (freeRange a n s).pow = s.pow ∧
    (freeRange a n s).link = s.link := by
  simp only [freeRange]
  simp

/-- What a sector becomes unknown leaves. -/
@[simp] theorem unknownSector_frame (n : Nat) (s : State) :
    (unknownSector n s).now = s.now ∧ (unknownSector n s).pending = s.pending ∧
    (unknownSector n s).lastLink = s.lastLink ∧ (unknownSector n s).lastRadio = s.lastRadio ∧
    (unknownSector n s).displayPlace = s.displayPlace ∧ (unknownSector n s).settings = s.settings ∧
    (unknownSector n s).img = s.img ∧ (unknownSector n s).wav = s.wav ∧ (unknownSector n s).conv = s.conv ∧
    (unknownSector n s).eng = s.eng ∧ (unknownSector n s).pool = s.pool ∧ (unknownSector n s).cache = s.cache ∧
    (unknownSector n s).keys = s.keys ∧ (unknownSector n s).light = s.light ∧ (unknownSector n s).sup = s.sup ∧
    (unknownSector n s).fetch = s.fetch ∧ (unknownSector n s).store = s.store ∧ (unknownSector n s).pow = s.pow ∧
    (unknownSector n s).link = s.link := by
  simp only [unknownSector]
  simp

/-- What a page becomes unknown leaves. -/
@[simp] theorem unknownPage_frame (a p : Nat) (d : List Byte) (s : State) :
    (unknownPage a p d s).now = s.now ∧ (unknownPage a p d s).pending = s.pending ∧
    (unknownPage a p d s).lastLink = s.lastLink ∧ (unknownPage a p d s).lastRadio = s.lastRadio ∧
    (unknownPage a p d s).displayPlace = s.displayPlace ∧ (unknownPage a p d s).settings = s.settings ∧
    (unknownPage a p d s).img = s.img ∧ (unknownPage a p d s).wav = s.wav ∧ (unknownPage a p d s).conv = s.conv ∧
    (unknownPage a p d s).eng = s.eng ∧ (unknownPage a p d s).pool = s.pool ∧
    (unknownPage a p d s).cache = s.cache ∧ (unknownPage a p d s).keys = s.keys ∧
    (unknownPage a p d s).light = s.light ∧ (unknownPage a p d s).sup = s.sup ∧
    (unknownPage a p d s).fetch = s.fetch ∧ (unknownPage a p d s).store = s.store ∧
    (unknownPage a p d s).pow = s.pow ∧ (unknownPage a p d s).link = s.link := by
  simp only [unknownPage]
  simp

/-- What a page is part-programmed leaves. -/
@[simp] theorem partlyPage_frame (a p : Nat) (d : List Byte) (s : State) :
    (partlyPage a p d s).now = s.now ∧ (partlyPage a p d s).pending = s.pending ∧
    (partlyPage a p d s).lastLink = s.lastLink ∧ (partlyPage a p d s).lastRadio = s.lastRadio ∧
    (partlyPage a p d s).displayPlace = s.displayPlace ∧ (partlyPage a p d s).settings = s.settings ∧
    (partlyPage a p d s).img = s.img ∧ (partlyPage a p d s).wav = s.wav ∧ (partlyPage a p d s).conv = s.conv ∧
    (partlyPage a p d s).eng = s.eng ∧ (partlyPage a p d s).pool = s.pool ∧ (partlyPage a p d s).cache = s.cache ∧
    (partlyPage a p d s).keys = s.keys ∧ (partlyPage a p d s).light = s.light ∧ (partlyPage a p d s).sup = s.sup ∧
    (partlyPage a p d s).fetch = s.fetch ∧ (partlyPage a p d s).store = s.store ∧
    (partlyPage a p d s).pow = s.pow ∧ (partlyPage a p d s).link = s.link := by
  simp only [partlyPage]
  simp

/-- What a page is programmed leaves. -/
@[simp] theorem programPage_frame (a p : Nat) (d : List Byte) (s : State) :
    (programPage a p d s).now = s.now ∧ (programPage a p d s).pending = s.pending ∧
    (programPage a p d s).fresh = s.fresh ∧ (programPage a p d s).lastLink = s.lastLink ∧
    (programPage a p d s).lastRadio = s.lastRadio ∧ (programPage a p d s).displayPlace = s.displayPlace ∧
    (programPage a p d s).settings = s.settings ∧ (programPage a p d s).img = s.img ∧
    (programPage a p d s).wav = s.wav ∧ (programPage a p d s).conv = s.conv ∧ (programPage a p d s).eng = s.eng ∧
    (programPage a p d s).pool = s.pool ∧ (programPage a p d s).cache = s.cache ∧
    (programPage a p d s).keys = s.keys ∧ (programPage a p d s).light = s.light ∧
    (programPage a p d s).sup = s.sup ∧ (programPage a p d s).fetch = s.fetch ∧
    (programPage a p d s).store = s.store ∧ (programPage a p d s).pow = s.pow ∧ (programPage a p d s).link = s.link := by
  simp only [programPage]
  simp

/-- What what a TIMEOUT leaves leaves. -/
@[simp] theorem timeoutContent_frame (o : Op) (s : State) :
    (timeoutContent o s).now = s.now ∧ (timeoutContent o s).pending = s.pending ∧
    (timeoutContent o s).lastLink = s.lastLink ∧ (timeoutContent o s).lastRadio = s.lastRadio ∧
    (timeoutContent o s).displayPlace = s.displayPlace ∧ (timeoutContent o s).settings = s.settings ∧
    (timeoutContent o s).img = s.img ∧ (timeoutContent o s).wav = s.wav ∧ (timeoutContent o s).conv = s.conv ∧
    (timeoutContent o s).eng = s.eng ∧ (timeoutContent o s).pool = s.pool ∧ (timeoutContent o s).cache = s.cache ∧
    (timeoutContent o s).keys = s.keys ∧ (timeoutContent o s).light = s.light ∧ (timeoutContent o s).sup = s.sup ∧
    (timeoutContent o s).fetch = s.fetch ∧ (timeoutContent o s).store = s.store ∧
    (timeoutContent o s).pow = s.pow ∧ (timeoutContent o s).link = s.link := by
  simp only [timeoutContent]
  repeat' split
  all_goals simp

/-- What what a FAULT leaves leaves. -/
@[simp] theorem faultContent_frame (o : Op) (s : State) :
    (faultContent o s).now = s.now ∧ (faultContent o s).pending = s.pending ∧
    (faultContent o s).lastLink = s.lastLink ∧ (faultContent o s).lastRadio = s.lastRadio ∧
    (faultContent o s).displayPlace = s.displayPlace ∧ (faultContent o s).settings = s.settings ∧
    (faultContent o s).img = s.img ∧ (faultContent o s).wav = s.wav ∧ (faultContent o s).conv = s.conv ∧
    (faultContent o s).eng = s.eng ∧ (faultContent o s).pool = s.pool ∧ (faultContent o s).cache = s.cache ∧
    (faultContent o s).keys = s.keys ∧ (faultContent o s).light = s.light ∧ (faultContent o s).sup = s.sup ∧
    (faultContent o s).fetch = s.fetch ∧ (faultContent o s).store = s.store ∧ (faultContent o s).pow = s.pow ∧
    (faultContent o s).link = s.link := by
  simp only [faultContent]
  repeat' split
  all_goals simp

/-- What the suspend test leaves. -/
@[simp] theorem suspendTest_frame (s : State) :
    (suspendTest s).now = s.now ∧ (suspendTest s).pending = s.pending ∧ (suspendTest s).fresh = s.fresh ∧
    (suspendTest s).lastLink = s.lastLink ∧ (suspendTest s).lastRadio = s.lastRadio ∧
    (suspendTest s).displayPlace = s.displayPlace ∧ (suspendTest s).settings = s.settings ∧
    (suspendTest s).img = s.img ∧ (suspendTest s).wav = s.wav ∧ (suspendTest s).conv = s.conv ∧
    (suspendTest s).eng = s.eng ∧ (suspendTest s).pool = s.pool ∧ (suspendTest s).cache = s.cache ∧
    (suspendTest s).keys = s.keys ∧ (suspendTest s).light = s.light ∧ (suspendTest s).sup = s.sup ∧
    (suspendTest s).fetch = s.fetch ∧ (suspendTest s).content = s.content ∧ (suspendTest s).pow = s.pow ∧
    (suspendTest s).link = s.link := by
  simp only [suspendTest]
  repeat' split
  all_goals simp

/-- What the erase is suspended leaves. -/
@[simp] theorem suspendNow_frame (s : State) :
    (suspendNow s).now = s.now ∧ (suspendNow s).pending = s.pending ∧ (suspendNow s).fresh = s.fresh ∧
    (suspendNow s).lastLink = s.lastLink ∧ (suspendNow s).lastRadio = s.lastRadio ∧
    (suspendNow s).displayPlace = s.displayPlace ∧ (suspendNow s).settings = s.settings ∧
    (suspendNow s).img = s.img ∧ (suspendNow s).wav = s.wav ∧ (suspendNow s).conv = s.conv ∧
    (suspendNow s).eng = s.eng ∧ (suspendNow s).pool = s.pool ∧ (suspendNow s).cache = s.cache ∧
    (suspendNow s).keys = s.keys ∧ (suspendNow s).light = s.light ∧ (suspendNow s).sup = s.sup ∧
    (suspendNow s).fetch = s.fetch ∧ (suspendNow s).content = s.content ∧ (suspendNow s).pow = s.pow ∧
    (suspendNow s).link = s.link := by
  simp only [suspendNow]
  simp

/-- What the erase is resumed leaves. -/
@[simp] theorem resumeIfDone_frame (s : State) :
    (resumeIfDone s).now = s.now ∧ (resumeIfDone s).pending = s.pending ∧ (resumeIfDone s).fresh = s.fresh ∧
    (resumeIfDone s).lastLink = s.lastLink ∧ (resumeIfDone s).lastRadio = s.lastRadio ∧
    (resumeIfDone s).displayPlace = s.displayPlace ∧ (resumeIfDone s).settings = s.settings ∧
    (resumeIfDone s).img = s.img ∧ (resumeIfDone s).wav = s.wav ∧ (resumeIfDone s).conv = s.conv ∧
    (resumeIfDone s).eng = s.eng ∧ (resumeIfDone s).pool = s.pool ∧ (resumeIfDone s).cache = s.cache ∧
    (resumeIfDone s).keys = s.keys ∧ (resumeIfDone s).light = s.light ∧ (resumeIfDone s).sup = s.sup ∧
    (resumeIfDone s).fetch = s.fetch ∧ (resumeIfDone s).content = s.content ∧ (resumeIfDone s).pow = s.pow ∧
    (resumeIfDone s).link = s.link := by
  simp only [resumeIfDone]
  repeat' split
  all_goals simp

/-- What the batch returns leaves. -/
@[simp] theorem returnBatch_frame (s : State) :
    (returnBatch s).now = s.now ∧ (returnBatch s).pending = s.pending ∧ (returnBatch s).fresh = s.fresh ∧
    (returnBatch s).lastLink = s.lastLink ∧ (returnBatch s).lastRadio = s.lastRadio ∧
    (returnBatch s).displayPlace = s.displayPlace ∧ (returnBatch s).settings = s.settings ∧
    (returnBatch s).img = s.img ∧ (returnBatch s).wav = s.wav ∧ (returnBatch s).conv = s.conv ∧
    (returnBatch s).eng = s.eng ∧ (returnBatch s).pool = s.pool ∧ (returnBatch s).cache = s.cache ∧
    (returnBatch s).keys = s.keys ∧ (returnBatch s).light = s.light ∧ (returnBatch s).sup = s.sup ∧
    (returnBatch s).fetch = s.fetch ∧ (returnBatch s).content = s.content ∧ (returnBatch s).pow = s.pow ∧
    (returnBatch s).link = s.link := by
  simp only [returnBatch]
  simp

/-- What a batch read overruns leaves. -/
@[simp] theorem batchOverrun_frame (rd er : Op) (s : State) :
    (batchOverrun rd er s).now = s.now ∧ (batchOverrun rd er s).pending = s.pending ∧
    (batchOverrun rd er s).lastLink = s.lastLink ∧ (batchOverrun rd er s).lastRadio = s.lastRadio ∧
    (batchOverrun rd er s).displayPlace = s.displayPlace ∧ (batchOverrun rd er s).settings = s.settings ∧
    (batchOverrun rd er s).cache = s.cache ∧ (batchOverrun rd er s).keys = s.keys ∧
    (batchOverrun rd er s).pow = s.pow := by
  simp only [batchOverrun]
  simp

/-- What the queue ends FAULT leaves. -/
@[simp] theorem faultQueue_frame (s : State) :
    (faultQueue s).now = s.now ∧ (faultQueue s).pending = s.pending ∧ (faultQueue s).fresh = s.fresh ∧
    (faultQueue s).lastLink = s.lastLink ∧ (faultQueue s).lastRadio = s.lastRadio ∧
    (faultQueue s).displayPlace = s.displayPlace ∧ (faultQueue s).settings = s.settings ∧
    (faultQueue s).img = s.img ∧ (faultQueue s).wav = s.wav ∧ (faultQueue s).conv = s.conv ∧
    (faultQueue s).eng = s.eng ∧ (faultQueue s).cache = s.cache ∧ (faultQueue s).keys = s.keys ∧
    (faultQueue s).light = s.light ∧ (faultQueue s).sup = s.sup ∧ (faultQueue s).content = s.content ∧
    (faultQueue s).pow = s.pow := by
  refine ⟨?_, ?_, ?_, ?_, ?_, ?_, ?_, ?_, ?_, ?_, ?_, ?_, ?_, ?_, ?_, ?_, ?_⟩
  · simp only [faultQueue]; rw [foldl_keeps State.now (by simp)]; simp
  · simp only [faultQueue]; rw [foldl_keeps State.pending (by simp)]; simp
  · simp only [faultQueue]; rw [foldl_keeps State.fresh (by simp)]; simp
  · simp only [faultQueue]; rw [foldl_keeps State.lastLink (by simp)]; simp
  · simp only [faultQueue]; rw [foldl_keeps State.lastRadio (by simp)]; simp
  · simp only [faultQueue]; rw [foldl_keeps State.displayPlace (by simp)]; simp
  · simp only [faultQueue]; rw [foldl_keeps State.settings (by simp)]; simp
  · simp only [faultQueue]; rw [foldl_keeps State.img (by simp)]; simp
  · simp only [faultQueue]; rw [foldl_keeps State.wav (by simp)]; simp
  · simp only [faultQueue]; rw [foldl_keeps State.conv (by simp)]; simp
  · simp only [faultQueue]; rw [foldl_keeps State.eng (by simp)]; simp
  · simp only [faultQueue]; rw [foldl_keeps State.cache (by simp)]; simp
  · simp only [faultQueue]; rw [foldl_keeps State.keys (by simp)]; simp
  · simp only [faultQueue]; rw [foldl_keeps State.light (by simp)]; simp
  · simp only [faultQueue]; rw [foldl_keeps State.sup (by simp)]; simp
  · simp only [faultQueue]; rw [foldl_keeps State.content (by simp)]; simp
  · simp only [faultQueue]; rw [foldl_keeps State.pow (by simp)]; simp

/-- What a flash reset is over leaves. -/
@[simp] theorem resetOver_frame (f : FlashState) (s : State) :
    (resetOver f s).now = s.now ∧ (resetOver f s).pending = s.pending ∧ (resetOver f s).fresh = s.fresh ∧
    (resetOver f s).lastLink = s.lastLink ∧ (resetOver f s).lastRadio = s.lastRadio ∧
    (resetOver f s).displayPlace = s.displayPlace ∧ (resetOver f s).settings = s.settings ∧
    (resetOver f s).cache = s.cache ∧ (resetOver f s).keys = s.keys ∧ (resetOver f s).content = s.content ∧
    (resetOver f s).pow = s.pow := by
  simp only [resetOver]
  repeat' split
  all_goals simp

/-- What the store goes OFFLINE leaves. -/
@[simp] theorem goOffline_frame (s : State) :
    (goOffline s).now = s.now ∧ (goOffline s).pending = s.pending ∧ (goOffline s).fresh = s.fresh ∧
    (goOffline s).lastLink = s.lastLink ∧ (goOffline s).lastRadio = s.lastRadio ∧
    (goOffline s).displayPlace = s.displayPlace ∧ (goOffline s).settings = s.settings ∧
    (goOffline s).cache = s.cache ∧ (goOffline s).keys = s.keys ∧ (goOffline s).content = s.content ∧
    (goOffline s).pow = s.pow := by
  simp only [goOffline]
  simp

/-- What the slot is ignored leaves. -/
@[simp] theorem ignoreSlot_frame (s : State) :
    (ignoreSlot s).now = s.now ∧ (ignoreSlot s).pending = s.pending ∧ (ignoreSlot s).fresh = s.fresh ∧
    (ignoreSlot s).lastLink = s.lastLink ∧ (ignoreSlot s).lastRadio = s.lastRadio ∧
    (ignoreSlot s).displayPlace = s.displayPlace ∧ (ignoreSlot s).settings = s.settings ∧
    (ignoreSlot s).img = s.img ∧ (ignoreSlot s).wav = s.wav ∧ (ignoreSlot s).conv = s.conv ∧
    (ignoreSlot s).eng = s.eng ∧ (ignoreSlot s).pool = s.pool ∧ (ignoreSlot s).cache = s.cache ∧
    (ignoreSlot s).keys = s.keys ∧ (ignoreSlot s).light = s.light ∧ (ignoreSlot s).sup = s.sup ∧
    (ignoreSlot s).store = s.store ∧ (ignoreSlot s).content = s.content ∧ (ignoreSlot s).pow = s.pow ∧
    (ignoreSlot s).link = s.link := by
  simp only [ignoreSlot]
  simp

/-- What a failed channel's operation leaves. -/
@[simp] theorem cutOp_frame (c : Nat) (s : State) :
    (cutOp c s).now = s.now ∧ (cutOp c s).pending = s.pending ∧ (cutOp c s).fresh = s.fresh ∧
    (cutOp c s).lastLink = s.lastLink ∧ (cutOp c s).lastRadio = s.lastRadio ∧
    (cutOp c s).displayPlace = s.displayPlace ∧ (cutOp c s).settings = s.settings ∧ (cutOp c s).cache = s.cache ∧
    (cutOp c s).keys = s.keys ∧ (cutOp c s).content = s.content ∧ (cutOp c s).pow = s.pow := by
  simp only [cutOp]
  repeat' split
  all_goals simp

/-- What a channel's failure leaves. -/
@[simp] theorem failChannel_frame (c : Nat) (r : FailReason) (s : State) :
    (failChannel c r s).now = s.now ∧ (failChannel c r s).pending = s.pending ∧
    (failChannel c r s).fresh = s.fresh ∧ (failChannel c r s).lastLink = s.lastLink ∧
    (failChannel c r s).lastRadio = s.lastRadio ∧ (failChannel c r s).displayPlace = s.displayPlace ∧
    (failChannel c r s).settings = s.settings ∧ (failChannel c r s).cache = s.cache ∧
    (failChannel c r s).keys = s.keys ∧ (failChannel c r s).content = s.content ∧ (failChannel c r s).pow = s.pow := by
  simp only [failChannel]
  simp

/-- What a chunk is found BAD leaves. -/
@[simp] theorem foundBad_frame (c i : Nat) (s : State) :
    (foundBad c i s).now = s.now ∧ (foundBad c i s).pending = s.pending ∧ (foundBad c i s).fresh = s.fresh ∧
    (foundBad c i s).lastLink = s.lastLink ∧ (foundBad c i s).lastRadio = s.lastRadio ∧
    (foundBad c i s).displayPlace = s.displayPlace ∧ (foundBad c i s).settings = s.settings ∧
    (foundBad c i s).cache = s.cache ∧ (foundBad c i s).keys = s.keys ∧ (foundBad c i s).content = s.content ∧
    (foundBad c i s).pow = s.pow := by
  simp only [foundBad]
  repeat' split
  all_goals simp

/-- What the engine's claim is judged leaves. -/
@[simp] theorem judgeEngineClaim_frame (s : State) :
    (judgeEngineClaim s).now = s.now ∧ (judgeEngineClaim s).pending = s.pending ∧
    (judgeEngineClaim s).fresh = s.fresh ∧ (judgeEngineClaim s).lastLink = s.lastLink ∧
    (judgeEngineClaim s).lastRadio = s.lastRadio ∧ (judgeEngineClaim s).displayPlace = s.displayPlace ∧
    (judgeEngineClaim s).settings = s.settings ∧ (judgeEngineClaim s).img = s.img ∧
    (judgeEngineClaim s).conv = s.conv ∧ (judgeEngineClaim s).pool = s.pool ∧
    (judgeEngineClaim s).cache = s.cache ∧ (judgeEngineClaim s).keys = s.keys ∧
    (judgeEngineClaim s).light = s.light ∧ (judgeEngineClaim s).fetch = s.fetch ∧
    (judgeEngineClaim s).store = s.store ∧ (judgeEngineClaim s).content = s.content ∧
    (judgeEngineClaim s).pow = s.pow := by
  simp only [judgeEngineClaim]
  repeat' split
  all_goals simp

/-- What the store's claim is judged leaves. -/
@[simp] theorem judgeStoreClaim_frame (s : State) :
    (judgeStoreClaim s).now = s.now ∧ (judgeStoreClaim s).pending = s.pending ∧
    (judgeStoreClaim s).fresh = s.fresh ∧ (judgeStoreClaim s).lastLink = s.lastLink ∧
    (judgeStoreClaim s).lastRadio = s.lastRadio ∧ (judgeStoreClaim s).displayPlace = s.displayPlace ∧
    (judgeStoreClaim s).settings = s.settings ∧ (judgeStoreClaim s).img = s.img ∧ (judgeStoreClaim s).wav = s.wav ∧
    (judgeStoreClaim s).conv = s.conv ∧ (judgeStoreClaim s).eng = s.eng ∧ (judgeStoreClaim s).cache = s.cache ∧
    (judgeStoreClaim s).keys = s.keys ∧ (judgeStoreClaim s).light = s.light ∧
    (judgeStoreClaim s).content = s.content ∧ (judgeStoreClaim s).pow = s.pow := by
  simp only [judgeStoreClaim]
  repeat' split
  all_goals simp

/-- What the cut to a new limit leaves. -/
@[simp] theorem cutToLimit_frame (s : State) :
    (cutToLimit s).now = s.now ∧ (cutToLimit s).pending = s.pending ∧ (cutToLimit s).fresh = s.fresh ∧
    (cutToLimit s).lastLink = s.lastLink ∧ (cutToLimit s).lastRadio = s.lastRadio ∧
    (cutToLimit s).displayPlace = s.displayPlace ∧ (cutToLimit s).settings = s.settings ∧
    (cutToLimit s).img = s.img ∧ (cutToLimit s).wav = s.wav ∧ (cutToLimit s).conv = s.conv ∧
    (cutToLimit s).eng = s.eng ∧ (cutToLimit s).pool = s.pool ∧ (cutToLimit s).cache = s.cache ∧
    (cutToLimit s).keys = s.keys ∧ (cutToLimit s).fetch = s.fetch ∧ (cutToLimit s).store = s.store ∧
    (cutToLimit s).content = s.content ∧ (cutToLimit s).pow = s.pow := by
  simp only [cutToLimit]
  repeat' split
  all_goals simp

/-- What the end of a pause leaves. -/
@[simp] theorem unpause_frame (b : Bool) (s : State) :
    (unpause b s).now = s.now ∧ (unpause b s).pending = s.pending ∧ (unpause b s).fresh = s.fresh ∧
    (unpause b s).lastLink = s.lastLink ∧ (unpause b s).lastRadio = s.lastRadio ∧
    (unpause b s).displayPlace = s.displayPlace ∧ (unpause b s).settings = s.settings ∧
    (unpause b s).cache = s.cache ∧ (unpause b s).keys = s.keys ∧ (unpause b s).content = s.content ∧
    (unpause b s).pow = s.pow := by
  simp only [unpause]
  repeat' split
  all_goals simp

/-- What a new limit leaves. -/
@[simp] theorem newLimit_frame (n : Nat) (s : State) :
    (newLimit n s).now = s.now ∧ (newLimit n s).pending = s.pending ∧ (newLimit n s).fresh = s.fresh ∧
    (newLimit n s).lastLink = s.lastLink ∧ (newLimit n s).lastRadio = s.lastRadio ∧
    (newLimit n s).displayPlace = s.displayPlace ∧ (newLimit n s).settings = s.settings ∧
    (newLimit n s).cache = s.cache ∧ (newLimit n s).keys = s.keys ∧ (newLimit n s).content = s.content ∧
    (newLimit n s).pow = s.pow := by
  simp only [newLimit]
  repeat' split
  all_goals simp

/-- What a BATT sample leaves. -/
@[simp] theorem battSample_frame (raw : Nat) (s : State) :
    (battSample raw s).now = s.now ∧ (battSample raw s).pending = s.pending ∧ (battSample raw s).fresh = s.fresh ∧
    (battSample raw s).lastLink = s.lastLink ∧ (battSample raw s).lastRadio = s.lastRadio ∧
    (battSample raw s).displayPlace = s.displayPlace ∧ (battSample raw s).settings = s.settings ∧
    (battSample raw s).cache = s.cache ∧ (battSample raw s).keys = s.keys ∧ (battSample raw s).content = s.content := by
  simp only [battSample]
  repeat' split
  all_goals simp

/-! ## Page cache and keys -/

/-- What a change of the cache leaves. -/
@[simp] theorem onCache_frame (f : PageCache → PageCache) (s : State) :
    (s.onCache f).now = s.now ∧ (s.onCache f).pending = s.pending ∧ (s.onCache f).fresh = s.fresh ∧
    (s.onCache f).lastLink = s.lastLink ∧ (s.onCache f).lastRadio = s.lastRadio ∧
    (s.onCache f).displayPlace = s.displayPlace ∧ (s.onCache f).settings = s.settings ∧ (s.onCache f).img = s.img ∧
    (s.onCache f).wav = s.wav ∧ (s.onCache f).conv = s.conv ∧ (s.onCache f).eng = s.eng ∧
    (s.onCache f).pool = s.pool ∧ (s.onCache f).keys = s.keys ∧ (s.onCache f).light = s.light ∧
    (s.onCache f).sup = s.sup ∧ (s.onCache f).fetch = s.fetch ∧ (s.onCache f).store = s.store ∧
    (s.onCache f).content = s.content ∧ (s.onCache f).pow = s.pow ∧ (s.onCache f).link = s.link := by
  simp only [State.onCache]
  simp

/-- What entries' slabs are freed leaves. -/
@[simp] theorem freeEntries_frame (l : List Nat) (s : State) :
    (freeEntries l s).now = s.now ∧ (freeEntries l s).pending = s.pending ∧ (freeEntries l s).fresh = s.fresh ∧
    (freeEntries l s).lastLink = s.lastLink ∧ (freeEntries l s).lastRadio = s.lastRadio ∧
    (freeEntries l s).displayPlace = s.displayPlace ∧ (freeEntries l s).settings = s.settings ∧
    (freeEntries l s).img = s.img ∧ (freeEntries l s).wav = s.wav ∧ (freeEntries l s).conv = s.conv ∧
    (freeEntries l s).eng = s.eng ∧ (freeEntries l s).cache = s.cache ∧ (freeEntries l s).keys = s.keys ∧
    (freeEntries l s).light = s.light ∧ (freeEntries l s).sup = s.sup ∧ (freeEntries l s).store = s.store ∧
    (freeEntries l s).content = s.content ∧ (freeEntries l s).pow = s.pow ∧ (freeEntries l s).link = s.link := by
  simp only [freeEntries]
  simp

/-- What a turn's exchange leaves. -/
@[simp] theorem exchange_frame (d : Dir) (e : Entry) (l : List Entry) (s : State) :
    (exchange d e l s).now = s.now ∧ (exchange d e l s).pending = s.pending ∧ (exchange d e l s).fresh = s.fresh ∧
    (exchange d e l s).lastLink = s.lastLink ∧ (exchange d e l s).lastRadio = s.lastRadio ∧
    (exchange d e l s).displayPlace = s.displayPlace ∧ (exchange d e l s).settings = s.settings ∧
    (exchange d e l s).wav = s.wav ∧ (exchange d e l s).conv = s.conv ∧ (exchange d e l s).eng = s.eng ∧
    (exchange d e l s).keys = s.keys ∧ (exchange d e l s).light = s.light ∧ (exchange d e l s).sup = s.sup ∧
    (exchange d e l s).fetch = s.fetch ∧ (exchange d e l s).store = s.store ∧
    (exchange d e l s).content = s.content ∧ (exchange d e l s).pow = s.pow ∧ (exchange d e l s).link = s.link := by
  simp only [exchange]
  simp

/-- What a turn leaves. -/
@[simp] theorem turnNow_frame (d : Dir) (o : Source) (p : Nat) (e : Entry) (l : List Entry) (s : State) :
    (turnNow d o p e l s).now = s.now ∧ (turnNow d o p e l s).pending = s.pending ∧
    (turnNow d o p e l s).fresh = s.fresh ∧ (turnNow d o p e l s).lastLink = s.lastLink ∧
    (turnNow d o p e l s).lastRadio = s.lastRadio ∧ (turnNow d o p e l s).displayPlace = s.displayPlace ∧
    (turnNow d o p e l s).settings = s.settings ∧ (turnNow d o p e l s).keys = s.keys ∧
    (turnNow d o p e l s).content = s.content ∧ (turnNow d o p e l s).pow = s.pow := by
  simp only [turnNow]
  simp

/-- What a turn attempt leaves. -/
@[simp] theorem turnAttempt_frame (d : Dir) (o : Source) (p : Nat) (s : State) :
    (turnAttempt d o p s).now = s.now ∧ (turnAttempt d o p s).pending = s.pending ∧
    (turnAttempt d o p s).fresh = s.fresh ∧ (turnAttempt d o p s).lastLink = s.lastLink ∧
    (turnAttempt d o p s).lastRadio = s.lastRadio ∧ (turnAttempt d o p s).displayPlace = s.displayPlace ∧
    (turnAttempt d o p s).settings = s.settings ∧ (turnAttempt d o p s).keys = s.keys ∧
    (turnAttempt d o p s).content = s.content ∧ (turnAttempt d o p s).pow = s.pow := by
  simp only [turnAttempt]
  repeat' split
  all_goals simp

/-- What a change of a key leaves. -/
@[simp] theorem onKey_frame (k : Key) (f : KeyScan → KeyScan) (s : State) :
    (s.onKey k f).now = s.now ∧ (s.onKey k f).pending = s.pending ∧ (s.onKey k f).fresh = s.fresh ∧
    (s.onKey k f).lastLink = s.lastLink ∧ (s.onKey k f).lastRadio = s.lastRadio ∧
    (s.onKey k f).displayPlace = s.displayPlace ∧ (s.onKey k f).settings = s.settings ∧ (s.onKey k f).img = s.img ∧
    (s.onKey k f).wav = s.wav ∧ (s.onKey k f).conv = s.conv ∧ (s.onKey k f).eng = s.eng ∧
    (s.onKey k f).pool = s.pool ∧ (s.onKey k f).cache = s.cache ∧ (s.onKey k f).light = s.light ∧
    (s.onKey k f).sup = s.sup ∧ (s.onKey k f).fetch = s.fetch ∧ (s.onKey k f).store = s.store ∧
    (s.onKey k f).content = s.content ∧ (s.onKey k f).pow = s.pow ∧ (s.onKey k f).link = s.link := by
  simp only [State.onKey]
  simp

/-- What a key's turn attempt leaves. -/
@[simp] theorem keyTurn_frame (k : Key) (d : Dir) (s : State) :
    (keyTurn k d s).now = s.now ∧ (keyTurn k d s).pending = s.pending ∧ (keyTurn k d s).fresh = s.fresh ∧
    (keyTurn k d s).lastLink = s.lastLink ∧ (keyTurn k d s).lastRadio = s.lastRadio ∧
    (keyTurn k d s).displayPlace = s.displayPlace ∧ (keyTurn k d s).settings = s.settings ∧
    (keyTurn k d s).content = s.content ∧ (keyTurn k d s).pow = s.pow := by
  simp only [keyTurn]
  repeat' split
  all_goals simp

/-- What a run is armed leaves. -/
@[simp] theorem armRun_frame (k : Key) (n : Nat) (s : State) :
    (armRun k n s).now = s.now ∧ (armRun k n s).pending = s.pending ∧ (armRun k n s).fresh = s.fresh ∧
    (armRun k n s).lastLink = s.lastLink ∧ (armRun k n s).lastRadio = s.lastRadio ∧
    (armRun k n s).displayPlace = s.displayPlace ∧ (armRun k n s).settings = s.settings ∧
    (armRun k n s).img = s.img ∧ (armRun k n s).wav = s.wav ∧ (armRun k n s).conv = s.conv ∧
    (armRun k n s).eng = s.eng ∧ (armRun k n s).pool = s.pool ∧ (armRun k n s).cache = s.cache ∧
    (armRun k n s).light = s.light ∧ (armRun k n s).sup = s.sup ∧ (armRun k n s).fetch = s.fetch ∧
    (armRun k n s).store = s.store ∧ (armRun k n s).content = s.content ∧ (armRun k n s).pow = s.pow ∧
    (armRun k n s).link = s.link := by
  simp only [armRun]
  simp

/-- What a run's tick leaves. -/
@[simp] theorem runTickNow_frame (k : Key) (d : Dir) (n : Nat) (s : State) :
    (runTickNow k d n s).now = s.now ∧ (runTickNow k d n s).pending = s.pending ∧
    (runTickNow k d n s).fresh = s.fresh ∧ (runTickNow k d n s).lastLink = s.lastLink ∧
    (runTickNow k d n s).lastRadio = s.lastRadio ∧ (runTickNow k d n s).displayPlace = s.displayPlace ∧
    (runTickNow k d n s).settings = s.settings ∧ (runTickNow k d n s).content = s.content ∧
    (runTickNow k d n s).pow = s.pow := by
  simp only [runTickNow]
  repeat' split
  all_goals simp

/-- What a settle update leaves. -/
@[simp] theorem settleRun_frame (d : Dir) (s : State) :
    (settleRun d s).now = s.now ∧ (settleRun d s).pending = s.pending ∧ (settleRun d s).fresh = s.fresh ∧
    (settleRun d s).lastLink = s.lastLink ∧ (settleRun d s).lastRadio = s.lastRadio ∧
    (settleRun d s).displayPlace = s.displayPlace ∧ (settleRun d s).settings = s.settings ∧
    (settleRun d s).pool = s.pool ∧ (settleRun d s).keys = s.keys ∧ (settleRun d s).fetch = s.fetch ∧
    (settleRun d s).content = s.content ∧ (settleRun d s).pow = s.pow := by
  simp only [settleRun]
  repeat' split
  all_goals simp

/-- What the LIGHT toggle leaves. -/
@[simp] theorem toggleLight_frame (s : State) :
    (toggleLight s).now = s.now ∧ (toggleLight s).pending = s.pending ∧ (toggleLight s).fresh = s.fresh ∧
    (toggleLight s).lastLink = s.lastLink ∧ (toggleLight s).lastRadio = s.lastRadio ∧
    (toggleLight s).displayPlace = s.displayPlace ∧ (toggleLight s).settings = s.settings ∧
    (toggleLight s).img = s.img ∧ (toggleLight s).wav = s.wav ∧ (toggleLight s).conv = s.conv ∧
    (toggleLight s).eng = s.eng ∧ (toggleLight s).pool = s.pool ∧ (toggleLight s).cache = s.cache ∧
    (toggleLight s).keys = s.keys ∧ (toggleLight s).sup = s.sup ∧ (toggleLight s).fetch = s.fetch ∧
    (toggleLight s).store = s.store ∧ (toggleLight s).content = s.content ∧ (toggleLight s).pow = s.pow := by
  simp only [toggleLight]
  repeat' split
  all_goals simp

/-! ## Power control -/

/-- What a change of power control leaves. -/
@[simp] theorem onPow_frame (f : Power → Power) (s : State) :
    (s.onPow f).now = s.now ∧ (s.onPow f).pending = s.pending ∧ (s.onPow f).fresh = s.fresh ∧
    (s.onPow f).lastLink = s.lastLink ∧ (s.onPow f).lastRadio = s.lastRadio ∧
    (s.onPow f).displayPlace = s.displayPlace ∧ (s.onPow f).settings = s.settings ∧ (s.onPow f).img = s.img ∧
    (s.onPow f).wav = s.wav ∧ (s.onPow f).conv = s.conv ∧ (s.onPow f).eng = s.eng ∧ (s.onPow f).pool = s.pool ∧
    (s.onPow f).cache = s.cache ∧ (s.onPow f).keys = s.keys ∧ (s.onPow f).light = s.light ∧
    (s.onPow f).sup = s.sup ∧ (s.onPow f).fetch = s.fetch ∧ (s.onPow f).store = s.store ∧
    (s.onPow f).content = s.content ∧ (s.onPow f).link = s.link := by
  simp only [State.onPow]
  simp

/-- What a wake source leaves. -/
@[simp] theorem wakeSource_frame (w : WakeSource) (s : State) :
    (wakeSource w s).now = s.now ∧ (wakeSource w s).pending = s.pending ∧ (wakeSource w s).fresh = s.fresh ∧
    (wakeSource w s).lastLink = s.lastLink ∧ (wakeSource w s).lastRadio = s.lastRadio ∧
    (wakeSource w s).displayPlace = s.displayPlace ∧ (wakeSource w s).settings = s.settings ∧
    (wakeSource w s).img = s.img ∧ (wakeSource w s).wav = s.wav ∧ (wakeSource w s).conv = s.conv ∧
    (wakeSource w s).eng = s.eng ∧ (wakeSource w s).pool = s.pool ∧ (wakeSource w s).cache = s.cache ∧
    (wakeSource w s).keys = s.keys ∧ (wakeSource w s).light = s.light ∧ (wakeSource w s).sup = s.sup ∧
    (wakeSource w s).fetch = s.fetch ∧ (wakeSource w s).store = s.store ∧ (wakeSource w s).content = s.content ∧
    (wakeSource w s).link = s.link := by
  simp only [wakeSource]
  repeat' split
  all_goals simp

/-- What the blocks go to sleep leaves. -/
@[simp] theorem sleepBlocks_frame (s : State) :
    (sleepBlocks s).now = s.now ∧ (sleepBlocks s).pending = s.pending ∧ (sleepBlocks s).fresh = s.fresh ∧
    (sleepBlocks s).lastLink = s.lastLink ∧ (sleepBlocks s).lastRadio = s.lastRadio ∧
    (sleepBlocks s).displayPlace = s.displayPlace ∧ (sleepBlocks s).settings = s.settings ∧
    (sleepBlocks s).img = s.img ∧ (sleepBlocks s).eng = s.eng ∧ (sleepBlocks s).pool = s.pool ∧
    (sleepBlocks s).cache = s.cache ∧ (sleepBlocks s).fetch = s.fetch ∧ (sleepBlocks s).content = s.content ∧
    (sleepBlocks s).pow = s.pow ∧ (sleepBlocks s).link = s.link := by
  simp only [sleepBlocks]
  simp

/-- What SLEEP is entered leaves. -/
@[simp] theorem enterSleep_frame (s : State) :
    (enterSleep s).now = s.now ∧ (enterSleep s).pending = s.pending ∧ (enterSleep s).fresh = s.fresh ∧
    (enterSleep s).lastLink = s.lastLink ∧ (enterSleep s).lastRadio = s.lastRadio ∧
    (enterSleep s).displayPlace = s.displayPlace ∧ (enterSleep s).settings = s.settings ∧
    (enterSleep s).img = s.img ∧ (enterSleep s).eng = s.eng ∧ (enterSleep s).pool = s.pool ∧
    (enterSleep s).cache = s.cache ∧ (enterSleep s).fetch = s.fetch ∧ (enterSleep s).content = s.content := by
  simp only [enterSleep]
  repeat' split
  all_goals simp

/-- What the drain is judged leaves. -/
@[simp] theorem drainJudge_frame (s : State) :
    (drainJudge s).now = s.now ∧ (drainJudge s).pending = s.pending ∧ (drainJudge s).fresh = s.fresh ∧
    (drainJudge s).lastLink = s.lastLink ∧ (drainJudge s).lastRadio = s.lastRadio ∧
    (drainJudge s).displayPlace = s.displayPlace ∧ (drainJudge s).settings = s.settings ∧
    (drainJudge s).img = s.img ∧ (drainJudge s).eng = s.eng ∧ (drainJudge s).pool = s.pool ∧
    (drainJudge s).cache = s.cache ∧ (drainJudge s).fetch = s.fetch ∧ (drainJudge s).content = s.content := by
  simp only [drainJudge]
  repeat' split
  all_goals simp

/-- What resleep is judged leaves. -/
@[simp] theorem resleepJudge_frame (s : State) :
    (resleepJudge s).now = s.now ∧ (resleepJudge s).pending = s.pending ∧ (resleepJudge s).fresh = s.fresh ∧
    (resleepJudge s).lastLink = s.lastLink ∧ (resleepJudge s).lastRadio = s.lastRadio ∧
    (resleepJudge s).displayPlace = s.displayPlace ∧ (resleepJudge s).settings = s.settings ∧
    (resleepJudge s).img = s.img ∧ (resleepJudge s).wav = s.wav ∧ (resleepJudge s).conv = s.conv ∧
    (resleepJudge s).eng = s.eng ∧ (resleepJudge s).pool = s.pool ∧ (resleepJudge s).cache = s.cache ∧
    (resleepJudge s).keys = s.keys ∧ (resleepJudge s).light = s.light ∧ (resleepJudge s).sup = s.sup ∧
    (resleepJudge s).fetch = s.fetch ∧ (resleepJudge s).store = s.store ∧ (resleepJudge s).content = s.content ∧
    (resleepJudge s).link = s.link := by
  simp only [resleepJudge]
  repeat' split
  all_goals simp

/-- What power control's judging leaves. -/
@[simp] theorem judgePower_frame (s : State) :
    (judgePower s).now = s.now ∧ (judgePower s).pending = s.pending ∧ (judgePower s).fresh = s.fresh ∧
    (judgePower s).lastLink = s.lastLink ∧ (judgePower s).lastRadio = s.lastRadio ∧
    (judgePower s).displayPlace = s.displayPlace ∧ (judgePower s).settings = s.settings ∧ (judgePower s).img = s.img ∧
    (judgePower s).eng = s.eng ∧ (judgePower s).pool = s.pool ∧ (judgePower s).cache = s.cache ∧ (judgePower s).fetch = s.fetch ∧
    (judgePower s).content = s.content := by
  simp only [judgePower]
  simp

/-- What the credits are withdrawn leaves. -/
@[simp] theorem withdrawCredits_frame (s : State) :
    (withdrawCredits s).now = s.now ∧ (withdrawCredits s).pending = s.pending ∧
    (withdrawCredits s).fresh = s.fresh ∧ (withdrawCredits s).lastLink = s.lastLink ∧
    (withdrawCredits s).lastRadio = s.lastRadio ∧ (withdrawCredits s).displayPlace = s.displayPlace ∧
    (withdrawCredits s).settings = s.settings ∧ (withdrawCredits s).img = s.img ∧ (withdrawCredits s).wav = s.wav ∧
    (withdrawCredits s).conv = s.conv ∧ (withdrawCredits s).eng = s.eng ∧ (withdrawCredits s).cache = s.cache ∧
    (withdrawCredits s).keys = s.keys ∧ (withdrawCredits s).light = s.light ∧ (withdrawCredits s).sup = s.sup ∧
    (withdrawCredits s).fetch = s.fetch ∧ (withdrawCredits s).store = s.store ∧
    (withdrawCredits s).content = s.content ∧ (withdrawCredits s).pow = s.pow ∧ (withdrawCredits s).link = s.link := by
  simp only [withdrawCredits]
  simp

/-- What a drain starts leaves. -/
@[simp] theorem drainStart_frame (n : Nat) (b : Bool) (s : State) :
    (drainStart n b s).now = s.now ∧ (drainStart n b s).pending = s.pending ∧ (drainStart n b s).fresh = s.fresh ∧
    (drainStart n b s).lastLink = s.lastLink ∧ (drainStart n b s).lastRadio = s.lastRadio ∧
    (drainStart n b s).displayPlace = s.displayPlace ∧ (drainStart n b s).settings = s.settings ∧
    (drainStart n b s).img = s.img ∧ (drainStart n b s).wav = s.wav ∧ (drainStart n b s).conv = s.conv ∧
    (drainStart n b s).eng = s.eng ∧ (drainStart n b s).cache = s.cache ∧ (drainStart n b s).keys = s.keys ∧
    (drainStart n b s).sup = s.sup ∧ (drainStart n b s).fetch = s.fetch ∧ (drainStart n b s).store = s.store ∧
    (drainStart n b s).content = s.content := by
  simp only [drainStart]
  simp

/-- What a drain returns leaves. -/
@[simp] theorem drainReturn_frame (p : PowerState) (s : State) :
    (drainReturn p s).now = s.now ∧ (drainReturn p s).pending = s.pending ∧ (drainReturn p s).fresh = s.fresh ∧
    (drainReturn p s).lastLink = s.lastLink ∧ (drainReturn p s).lastRadio = s.lastRadio ∧
    (drainReturn p s).displayPlace = s.displayPlace ∧ (drainReturn p s).settings = s.settings ∧
    (drainReturn p s).cache = s.cache ∧ (drainReturn p s).keys = s.keys ∧ (drainReturn p s).content = s.content := by
  simp only [drainReturn]
  simp

/-- What a drain is cancelled leaves. -/
@[simp] theorem drainCancel_frame (s : State) :
    (drainCancel s).now = s.now ∧ (drainCancel s).pending = s.pending ∧ (drainCancel s).fresh = s.fresh ∧
    (drainCancel s).lastLink = s.lastLink ∧ (drainCancel s).lastRadio = s.lastRadio ∧
    (drainCancel s).displayPlace = s.displayPlace ∧ (drainCancel s).settings = s.settings ∧
    (drainCancel s).cache = s.cache ∧ (drainCancel s).keys = s.keys ∧ (drainCancel s).content = s.content := by
  simp only [drainCancel]
  simp

/-- What a drain fails leaves. -/
@[simp] theorem drainFail_frame (s : State) :
    (drainFail s).now = s.now ∧ (drainFail s).pending = s.pending ∧ (drainFail s).fresh = s.fresh ∧
    (drainFail s).lastLink = s.lastLink ∧ (drainFail s).lastRadio = s.lastRadio ∧
    (drainFail s).displayPlace = s.displayPlace ∧ (drainFail s).settings = s.settings ∧
    (drainFail s).cache = s.cache ∧ (drainFail s).keys = s.keys ∧ (drainFail s).content = s.content := by
  simp only [drainFail]
  simp

/-- What DOZE becomes ACTIVE leaves. -/
@[simp] theorem dozeToActive_frame (s : State) :
    (dozeToActive s).now = s.now ∧ (dozeToActive s).pending = s.pending ∧ (dozeToActive s).fresh = s.fresh ∧
    (dozeToActive s).lastLink = s.lastLink ∧ (dozeToActive s).lastRadio = s.lastRadio ∧
    (dozeToActive s).displayPlace = s.displayPlace ∧ (dozeToActive s).settings = s.settings ∧
    (dozeToActive s).img = s.img ∧ (dozeToActive s).wav = s.wav ∧ (dozeToActive s).conv = s.conv ∧
    (dozeToActive s).eng = s.eng ∧ (dozeToActive s).pool = s.pool ∧ (dozeToActive s).cache = s.cache ∧
    (dozeToActive s).keys = s.keys ∧ (dozeToActive s).light = s.light ∧ (dozeToActive s).sup = s.sup ∧
    (dozeToActive s).fetch = s.fetch ∧ (dozeToActive s).store = s.store ∧ (dozeToActive s).content = s.content ∧
    (dozeToActive s).link = s.link := by
  simp only [dozeToActive]
  simp

/-- What a host packet arrives leaves. -/
@[simp] theorem hostArrives_frame (s : State) :
    (hostArrives s).now = s.now ∧ (hostArrives s).pending = s.pending ∧ (hostArrives s).fresh = s.fresh ∧
    (hostArrives s).lastLink = s.lastLink ∧ (hostArrives s).lastRadio = s.lastRadio ∧
    (hostArrives s).displayPlace = s.displayPlace ∧ (hostArrives s).settings = s.settings ∧
    (hostArrives s).cache = s.cache ∧ (hostArrives s).keys = s.keys ∧ (hostArrives s).content = s.content := by
  simp only [hostArrives]
  repeat' split
  all_goals simp

/-- What the flash leaves low power leaves. -/
@[simp] theorem flashUp_frame (s : State) :
    (flashUp s).now = s.now ∧ (flashUp s).pending = s.pending ∧ (flashUp s).fresh = s.fresh ∧
    (flashUp s).lastLink = s.lastLink ∧ (flashUp s).lastRadio = s.lastRadio ∧
    (flashUp s).displayPlace = s.displayPlace ∧ (flashUp s).settings = s.settings ∧ (flashUp s).img = s.img ∧
    (flashUp s).wav = s.wav ∧ (flashUp s).conv = s.conv ∧ (flashUp s).eng = s.eng ∧ (flashUp s).pool = s.pool ∧
    (flashUp s).cache = s.cache ∧ (flashUp s).keys = s.keys ∧ (flashUp s).light = s.light ∧
    (flashUp s).sup = s.sup ∧ (flashUp s).fetch = s.fetch ∧ (flashUp s).content = s.content ∧
    (flashUp s).pow = s.pow ∧ (flashUp s).link = s.link := by
  simp only [flashUp]
  simp

/-- What a page key's wake action leaves. -/
@[simp] theorem wakeTurn_frame (k : Key) (d : Dir) (s : State) :
    (wakeTurn k d s).now = s.now ∧ (wakeTurn k d s).pending = s.pending ∧ (wakeTurn k d s).fresh = s.fresh ∧
    (wakeTurn k d s).lastLink = s.lastLink ∧ (wakeTurn k d s).lastRadio = s.lastRadio ∧
    (wakeTurn k d s).displayPlace = s.displayPlace ∧ (wakeTurn k d s).settings = s.settings ∧
    (wakeTurn k d s).content = s.content ∧ (wakeTurn k d s).pow = s.pow := by
  simp only [wakeTurn]
  repeat' split
  all_goals simp

/-- What the LIGHT key's wake action leaves. -/
@[simp] theorem wakeLight_frame (s : State) :
    (wakeLight s).now = s.now ∧ (wakeLight s).pending = s.pending ∧ (wakeLight s).fresh = s.fresh ∧
    (wakeLight s).lastLink = s.lastLink ∧ (wakeLight s).lastRadio = s.lastRadio ∧
    (wakeLight s).displayPlace = s.displayPlace ∧ (wakeLight s).settings = s.settings ∧ (wakeLight s).img = s.img ∧
    (wakeLight s).wav = s.wav ∧ (wakeLight s).conv = s.conv ∧ (wakeLight s).eng = s.eng ∧
    (wakeLight s).pool = s.pool ∧ (wakeLight s).cache = s.cache ∧ (wakeLight s).sup = s.sup ∧
    (wakeLight s).fetch = s.fetch ∧ (wakeLight s).store = s.store ∧ (wakeLight s).content = s.content ∧
    (wakeLight s).pow = s.pow := by
  simp only [wakeLight]
  repeat' split
  all_goals simp

/-- What a wake source's action leaves. -/
@[simp] theorem wakeAction_frame (w : WakeSource) (s : State) :
    (wakeAction w s).now = s.now ∧ (wakeAction w s).pending = s.pending ∧ (wakeAction w s).fresh = s.fresh ∧
    (wakeAction w s).lastLink = s.lastLink ∧ (wakeAction w s).lastRadio = s.lastRadio ∧
    (wakeAction w s).displayPlace = s.displayPlace ∧ (wakeAction w s).settings = s.settings ∧
    (wakeAction w s).content = s.content := by
  cases w <;> simp [wakeAction]

/-- What the blocks come up leaves. -/
@[simp] theorem wakeBlocks_frame (s : State) :
    (wakeBlocks s).now = s.now ∧ (wakeBlocks s).pending = s.pending ∧ (wakeBlocks s).fresh = s.fresh ∧
    (wakeBlocks s).lastLink = s.lastLink ∧ (wakeBlocks s).lastRadio = s.lastRadio ∧
    (wakeBlocks s).displayPlace = s.displayPlace ∧ (wakeBlocks s).settings = s.settings ∧
    (wakeBlocks s).img = s.img ∧ (wakeBlocks s).wav = s.wav ∧ (wakeBlocks s).eng = s.eng ∧
    (wakeBlocks s).pool = s.pool ∧ (wakeBlocks s).cache = s.cache ∧ (wakeBlocks s).keys = s.keys ∧
    (wakeBlocks s).sup = s.sup ∧ (wakeBlocks s).fetch = s.fetch ∧ (wakeBlocks s).content = s.content ∧
    (wakeBlocks s).link = s.link := by
  simp only [wakeBlocks]
  simp

/-- What the part leaves SLEEP leaves. -/
@[simp] theorem wakeEnd_frame (s : State) :
    (wakeEnd s).now = s.now ∧ (wakeEnd s).pending = s.pending ∧ (wakeEnd s).fresh = s.fresh ∧
    (wakeEnd s).lastLink = s.lastLink ∧ (wakeEnd s).lastRadio = s.lastRadio ∧
    (wakeEnd s).displayPlace = s.displayPlace ∧ (wakeEnd s).settings = s.settings ∧ (wakeEnd s).content = s.content := by
  refine ⟨?_, ?_, ?_, ?_, ?_, ?_, ?_, ?_⟩
  · simp only [wakeEnd]; simp [foldl_keeps State.now]
  · simp only [wakeEnd]; simp [foldl_keeps State.pending]
  · simp only [wakeEnd]; simp [foldl_keeps State.fresh]
  · simp only [wakeEnd]; simp [foldl_keeps State.lastLink]
  · simp only [wakeEnd]; simp [foldl_keeps State.lastRadio]
  · simp only [wakeEnd]; simp [foldl_keeps State.displayPlace]
  · simp only [wakeEnd]; simp [foldl_keeps State.settings]
  · simp only [wakeEnd]; simp [foldl_keeps State.content]

/-- What waveforms at a warm reset leaves. -/
@[simp] theorem warmWaves_frame (s : State) :
    (warmWaves s).now = s.now ∧ (warmWaves s).pending = s.pending ∧ (warmWaves s).fresh = s.fresh ∧
    (warmWaves s).lastLink = s.lastLink ∧ (warmWaves s).lastRadio = s.lastRadio ∧
    (warmWaves s).displayPlace = s.displayPlace ∧ (warmWaves s).settings = s.settings ∧ (warmWaves s).img = s.img ∧
    (warmWaves s).conv = s.conv ∧ (warmWaves s).eng = s.eng ∧ (warmWaves s).pool = s.pool ∧
    (warmWaves s).cache = s.cache ∧ (warmWaves s).keys = s.keys ∧ (warmWaves s).light = s.light ∧
    (warmWaves s).sup = s.sup ∧ (warmWaves s).fetch = s.fetch ∧ (warmWaves s).store = s.store ∧
    (warmWaves s).content = s.content ∧ (warmWaves s).pow = s.pow ∧ (warmWaves s).link = s.link := by
  simp only [warmWaves]
  simp

/-- What the budget at a warm reset leaves. -/
@[simp] theorem warmSupply_frame (s : State) :
    (warmSupply s).now = s.now ∧ (warmSupply s).pending = s.pending ∧ (warmSupply s).fresh = s.fresh ∧
    (warmSupply s).lastLink = s.lastLink ∧ (warmSupply s).lastRadio = s.lastRadio ∧
    (warmSupply s).displayPlace = s.displayPlace ∧ (warmSupply s).settings = s.settings ∧
    (warmSupply s).img = s.img ∧ (warmSupply s).wav = s.wav ∧ (warmSupply s).conv = s.conv ∧
    (warmSupply s).eng = s.eng ∧ (warmSupply s).pool = s.pool ∧ (warmSupply s).cache = s.cache ∧
    (warmSupply s).keys = s.keys ∧ (warmSupply s).light = s.light ∧ (warmSupply s).fetch = s.fetch ∧
    (warmSupply s).store = s.store ∧ (warmSupply s).content = s.content ∧ (warmSupply s).pow = s.pow ∧
    (warmSupply s).link = s.link := by
  simp only [warmSupply]
  simp

/-- What the light at a warm reset leaves. -/
@[simp] theorem warmLight_frame (s : State) :
    (warmLight s).now = s.now ∧ (warmLight s).pending = s.pending ∧ (warmLight s).fresh = s.fresh ∧
    (warmLight s).lastLink = s.lastLink ∧ (warmLight s).lastRadio = s.lastRadio ∧
    (warmLight s).displayPlace = s.displayPlace ∧ (warmLight s).settings = s.settings ∧ (warmLight s).img = s.img ∧
    (warmLight s).wav = s.wav ∧ (warmLight s).conv = s.conv ∧ (warmLight s).eng = s.eng ∧
    (warmLight s).pool = s.pool ∧ (warmLight s).cache = s.cache ∧ (warmLight s).keys = s.keys ∧
    (warmLight s).sup = s.sup ∧ (warmLight s).fetch = s.fetch ∧ (warmLight s).store = s.store ∧
    (warmLight s).content = s.content ∧ (warmLight s).pow = s.pow ∧ (warmLight s).link = s.link := by
  simp only [warmLight]
  simp

/-- What keys and cache at a warm reset leaves. -/
@[simp] theorem warmKeys_frame (s : State) :
    (warmKeys s).now = s.now ∧ (warmKeys s).pending = s.pending ∧ (warmKeys s).fresh = s.fresh ∧
    (warmKeys s).lastLink = s.lastLink ∧ (warmKeys s).lastRadio = s.lastRadio ∧
    (warmKeys s).displayPlace = s.displayPlace ∧ (warmKeys s).settings = s.settings ∧ (warmKeys s).img = s.img ∧
    (warmKeys s).wav = s.wav ∧ (warmKeys s).conv = s.conv ∧ (warmKeys s).eng = s.eng ∧ (warmKeys s).pool = s.pool ∧
    (warmKeys s).light = s.light ∧ (warmKeys s).sup = s.sup ∧ (warmKeys s).fetch = s.fetch ∧
    (warmKeys s).store = s.store ∧ (warmKeys s).content = s.content ∧ (warmKeys s).pow = s.pow ∧
    (warmKeys s).link = s.link := by
  simp only [warmKeys]
  simp

/-- What fetch at a warm reset leaves. -/
@[simp] theorem warmFetch_frame (s : State) :
    (warmFetch s).now = s.now ∧ (warmFetch s).pending = s.pending ∧ (warmFetch s).fresh = s.fresh ∧
    (warmFetch s).lastLink = s.lastLink ∧ (warmFetch s).lastRadio = s.lastRadio ∧
    (warmFetch s).displayPlace = s.displayPlace ∧ (warmFetch s).settings = s.settings ∧ (warmFetch s).img = s.img ∧
    (warmFetch s).wav = s.wav ∧ (warmFetch s).conv = s.conv ∧ (warmFetch s).eng = s.eng ∧
    (warmFetch s).cache = s.cache ∧ (warmFetch s).keys = s.keys ∧ (warmFetch s).light = s.light ∧
    (warmFetch s).sup = s.sup ∧ (warmFetch s).store = s.store ∧ (warmFetch s).content = s.content ∧
    (warmFetch s).pow = s.pow ∧ (warmFetch s).link = s.link := by
  simp only [warmFetch]
  simp

/-- What the flash's operation at a warm reset leaves. -/
@[simp] theorem warmOp_frame (o : Op) (s : State) :
    (warmOp o s).now = s.now ∧ (warmOp o s).pending = s.pending ∧ (warmOp o s).lastLink = s.lastLink ∧
    (warmOp o s).lastRadio = s.lastRadio ∧ (warmOp o s).displayPlace = s.displayPlace ∧
    (warmOp o s).settings = s.settings ∧ (warmOp o s).pool = s.pool ∧ (warmOp o s).cache = s.cache ∧
    (warmOp o s).keys = s.keys ∧ (warmOp o s).fetch = s.fetch ∧ (warmOp o s).pow = s.pow := by
  simp only [warmOp]
  repeat' split
  all_goals simp

/-- What the store at a warm reset leaves. -/
@[simp] theorem warmStore_frame (s : State) :
    (warmStore s).now = s.now ∧ (warmStore s).pending = s.pending ∧ (warmStore s).lastLink = s.lastLink ∧
    (warmStore s).lastRadio = s.lastRadio ∧ (warmStore s).displayPlace = s.displayPlace ∧
    (warmStore s).settings = s.settings ∧ (warmStore s).pool = s.pool ∧ (warmStore s).cache = s.cache ∧
    (warmStore s).keys = s.keys ∧ (warmStore s).fetch = s.fetch ∧ (warmStore s).pow = s.pow := by
  simp only [warmStore]
  repeat' split
  all_goals simp

/-- What a warm reset leaves. -/
@[simp] theorem warmEvent_frame (s : State) :
    (warmEvent s).now = s.now ∧ (warmEvent s).pending = s.pending ∧ (warmEvent s).lastLink = s.lastLink ∧
    (warmEvent s).lastRadio = s.lastRadio ∧ (warmEvent s).displayPlace = s.displayPlace ∧
    (warmEvent s).settings = s.settings := by
  simp only [warmEvent]
  simp

/-- What the end of a transfer leaves. -/
@[simp] theorem transferEnds_frame (s : State) :
    (transferEnds s).now = s.now ∧ (transferEnds s).pending = s.pending ∧ (transferEnds s).fresh = s.fresh ∧
    (transferEnds s).lastLink = s.lastLink ∧ (transferEnds s).lastRadio = s.lastRadio ∧
    (transferEnds s).displayPlace = s.displayPlace ∧ (transferEnds s).settings = s.settings ∧
    (transferEnds s).img = s.img ∧ (transferEnds s).wav = s.wav ∧ (transferEnds s).conv = s.conv ∧
    (transferEnds s).eng = s.eng ∧ (transferEnds s).pool = s.pool ∧ (transferEnds s).cache = s.cache ∧
    (transferEnds s).keys = s.keys ∧ (transferEnds s).light = s.light ∧ (transferEnds s).sup = s.sup ∧
    (transferEnds s).fetch = s.fetch ∧ (transferEnds s).store = s.store ∧ (transferEnds s).content = s.content ∧
    (transferEnds s).pow = s.pow := by
  simp [transferEnds]

/-- What the end of a transfer does to the link. -/
@[simp] theorem transferEnds_link (s : State) : (transferEnds s).link = { s.link with wakeTransfer := false } := rfl

/-- What the beginning of a transfer does to the link. -/
@[simp] theorem transferBegins_link (s : State) : (transferBegins s).link =
    { s.link with wakeTransfer := s.pow.state == .sleep && s.pow.waking.contains .host } := rfl

/-- What the beginning of a transfer leaves. -/
@[simp] theorem transferBegins_frame (s : State) :
    (transferBegins s).now = s.now ∧ (transferBegins s).pending = s.pending ∧ (transferBegins s).fresh = s.fresh ∧
    (transferBegins s).lastLink = s.lastLink ∧ (transferBegins s).lastRadio = s.lastRadio ∧
    (transferBegins s).displayPlace = s.displayPlace ∧ (transferBegins s).settings = s.settings ∧
    (transferBegins s).img = s.img ∧ (transferBegins s).wav = s.wav ∧ (transferBegins s).conv = s.conv ∧
    (transferBegins s).eng = s.eng ∧ (transferBegins s).pool = s.pool ∧ (transferBegins s).cache = s.cache ∧
    (transferBegins s).keys = s.keys ∧ (transferBegins s).light = s.light ∧ (transferBegins s).sup = s.sup ∧
    (transferBegins s).fetch = s.fetch ∧ (transferBegins s).store = s.store ∧
    (transferBegins s).content = s.content ∧ (transferBegins s).pow = s.pow := by
  simp [transferBegins]

/-- What an operation's suspend test at its joining leaves. -/
@[simp] theorem joinTest_frame (k : OpKind) (s : State) :
    (joinTest k s).now = s.now ∧ (joinTest k s).pending = s.pending ∧ (joinTest k s).fresh = s.fresh ∧
    (joinTest k s).lastLink = s.lastLink ∧ (joinTest k s).lastRadio = s.lastRadio ∧
    (joinTest k s).displayPlace = s.displayPlace ∧ (joinTest k s).settings = s.settings ∧
    (joinTest k s).img = s.img ∧ (joinTest k s).wav = s.wav ∧ (joinTest k s).conv = s.conv ∧
    (joinTest k s).eng = s.eng ∧ (joinTest k s).pool = s.pool ∧ (joinTest k s).cache = s.cache ∧
    (joinTest k s).keys = s.keys ∧ (joinTest k s).light = s.light ∧ (joinTest k s).sup = s.sup ∧
    (joinTest k s).fetch = s.fetch ∧ (joinTest k s).content = s.content ∧ (joinTest k s).pow = s.pow ∧
    (joinTest k s).link = s.link := by
  cases k <;> simp [joinTest]

end Sys2Proof.Machine
end

