-- ==== Sys2Proof/Laws/Engine.lean ====
section
/-! SUPPORT. Laws/Engine.lean: tiles, lanes, the look and the decision pass where they have nothing to do. -/

namespace Sys2Proof.Machine

open Sys2Proof

/-- Some tile passes a test. -/
theorem anyTile_iff (p : Nat → Tile → Bool) (n) (ts : List Tile) :
    anyTile p n ts = true ↔ ∃ k t, ts[k]? = some t ∧ p (n + k) t = true := by
  induction ts generalizing n with
  | nil => simp [anyTile]
  | cons a ts ih =>
    simp only [anyTile, Bool.or_eq_true, ih]
    constructor
    · rintro (h | ⟨k, t, h, h2⟩)
      · exact ⟨0, a, rfl, h⟩
      · exact ⟨k+1, t, h, by rw [show n + (k+1) = n+1+k by omega]; exact h2⟩
    · rintro ⟨k, t, h, h2⟩
      cases k with
      | zero => cases h; exact .inl h2
      | succ k => exact .inr ⟨k, t, h, by rw [show n+1+k = n + (k+1) by omega]; exact h2⟩

/-- One tile after a change of every tile. -/
theorem mapTiles_getElem? (f) (n) (ts : List Tile) (k : Nat) : (mapTiles f n ts)[k]? = ts[k]?.map (f (n+k)) := by
  induction ts generalizing n k with
  | nil => simp [mapTiles]
  | cons a ts ih =>
    cases k with
    | zero => rfl
    | succ k => simp only [mapTiles, List.getElem?_cons_succ, ih]; rw [show n+1+k = n + (k+1) by omega]

/-- The first eligible entry, with those ahead of it. -/
theorem firstEligible_split (s : State) (ahead q) (e) (h : s.firstEligible ahead q = some e) :
    ∃ a b, q = a ++ e :: b ∧ s.eligible (ahead ++ a) e = true := by
  induction q generalizing ahead with
  | nil => cases h
  | cons x q ih =>
    simp only [State.firstEligible] at h
    split at h
    · cases h; exact ⟨[], q, rfl, by simpa⟩
    · obtain ⟨a, b, rfl, h2⟩ := ih _ h
      exact ⟨x :: a, b, rfl, by simpa using h2⟩

/-- No entry is CLAIMING. -/
theorem claimingEntry_eq_none (s : State) : s.claimingEntry = none ↔ ∀ a ∈ s.eng.queue, a.pick = none := by
  simp [State.claimingEntry]

/-- The first free lane by its number. -/
theorem findIdx_free (ls : List (Option Lane)) (i) (h : ls[i]? = some none) (h2 : ∀ j < i, ls[j]? ≠ some none) : ls.findIdx Option.isNone = i := by
  obtain ⟨hl, he⟩ := List.getElem?_eq_some_iff.1 h
  rw [List.findIdx_eq hl]
  refine ⟨by rw [he]; rfl, ?_⟩
  intro j hj
  have := h2 j hj
  rw [List.getElem?_eq_getElem (by omega)] at this
  cases hh : ls[j] <;> simp_all

/-- Free lanes pass no test. -/
theorem lanesWhere_free (p) (i) (ls : List (Option Lane)) (h : ∀ x ∈ ls, x = none) : lanesWhere p i ls = [] := by
  induction ls generalizing i with
  | nil => rfl
  | cons a ls ih =>
    have := h a (by simp); subst this
    exact ih _ (fun l hl => h l (by simp [hl]))

/-- Free lanes ahead only shift the numbers. -/
theorem lanesWhere_append (p) (i) (pre : List (Option Lane)) (h : ∀ x ∈ pre, x = none) (rest) : lanesWhere p i (pre ++ rest) = lanesWhere p (i + pre.length) rest := by
  induction pre generalizing i with
  | nil => rfl
  | cons a ls ih =>
    have := h a (by simp); subst this
    rw [List.cons_append, lanesWhere, ih _ (fun l hl => h l (by simp [hl])), List.length_cons]; congr 1; omega

/-- A light whose claim is met wants nothing. -/
theorem standingWant_met (s : State) (h : s.light.claim ≤ s.light.grant) : standingWant s = s := by
  simp only [standingWant]; rw [if_neg (by omega)]

/-- Without claims and without a standing want a decision pass changes nothing. -/
theorem decisionPass_idle (s : State) (h : s.sup.waiting = []) (h2 : s.light.claim ≤ s.light.grant) : decisionPass s = s := by
  simp only [decisionPass]; unfold passLoop; rw [h]; exact standingWant_met s h2

/-- A look at an empty queue changes nothing. -/
theorem lookPass_empty (s : State) (h : s.eng.queue = []) : lookPass s = s := by
  have : look s = s := by simp [look, lookLoop, h]
  simp [lookPass, this]

end Sys2Proof.Machine
end

