-- ==== Sys2Proof/Laws/Fetch.lean ====
section
/-! SUPPORT. Laws/Fetch.lean: slabs, credits and channels. -/

namespace Sys2Proof.Machine

open Sys2Proof

/-- What the taking of a free slab does to a count of holders. -/
theorem countP_takeSlab (h : Holder) (q : Holder → Bool) (p : List Holder) (hp : .free ∈ p) :
   (takeSlab h p).countP q + (if q .free then 1 else 0) = p.countP q + (if q h then 1 else 0) := by
  induction p with
  | nil => cases hp
  | cons x xs ih =>
    simp only [takeSlab]
    split
    · rename_i hx; subst hx; simp [List.countP_cons]; omega
    · rename_i hx
      have := ih (by simpa [Ne.symm hx] using hp)
      simp only [List.countP_cons]; omega

/-- A grant adds a credit and takes a free slab (R120). -/
theorem grantCredit_counts (c : Nat) (s : State) (h : 0 < s.freeCount) :
    (grantCredit c s).credits c = s.credits c + 1 ∧ (grantCredit c s).freeCount + 1 = s.freeCount := by
  have hm : Holder.free ∈ s.pool := by
    obtain ⟨x, hx, he⟩ := List.countP_pos_iff.1 h
    simp at he; exact he ▸ hx
  have h1 := countP_takeSlab (.credit c) (fun h => h == .credit c) s.pool hm
  have h2 := countP_takeSlab (.credit c) (fun h => h == .free) s.pool hm
  simp at h1 h2
  exact ⟨h1, h2⟩

/-- The taker of a credit is the first channel that wants one, while credits are granted. -/
theorem creditTaker_spec (s : State) (c) (h : s.creditTaker = some c) : s.grantsCredits = true ∧ (channelsAfter s.fetch.lastGranted).find? s.wantsCredit = some c := by
  simp only [State.creditTaker] at h; split at h
  · rename_i h1; exact ⟨h1, h⟩
  · cases h

/-- Enough grants leave no taker. -/
theorem creditLoop_creditTaker (n s) (h : s.freeCount ≤ n) : (creditLoop n s).creditTaker = none := by
  induction n generalizing s with
  | zero =>
    have : s.grantsCredits = false := by
      rw [← Bool.not_eq_true]; intro hh; have h2 : 1 ≤ s.availableToFetch := by simp [State.grantsCredits] at hh; exact hh.2
      unfold State.availableToFetch at h2; omega
    simp [creditLoop, State.creditTaker, this]
  | succ n ih =>
    simp only [creditLoop]
    split
    · assumption
    · rename_i c hc
      have hpos : 1 ≤ s.availableToFetch := by have := (creditTaker_spec s c hc).1; simp [State.grantsCredits] at this; exact this.2
      have hfree : 0 < s.freeCount := by unfold State.availableToFetch at hpos; omega
      exact ih _ (by have := (grantCredit_counts c s hfree).2; omega)

/-- The changed channel. -/
theorem channel_onChannel (s : State) (c : Nat) (f) (hc : c < s.fetch.channels.length) : (s.onChannel c f).channel c = f (s.channel c) := by
  simp [State.channel, State.onChannel, List.getD_eq_getElem?_getD, hc]

/-- Another channel is unchanged. -/
theorem channel_onChannel_ne (s : State) (c d : Nat) (f) (hc : d ≠ c) : (s.onChannel c f).channel d = s.channel d := by
  simp [State.channel, State.onChannel, List.getD_eq_getElem?_getD, Ne.symm hc]

/-- A holder after a slab is taken. -/
theorem mem_takeSlab (h x : Holder) (p) (hx : x ∈ takeSlab h p) : x = h ∨ x ∈ p := by
  induction p with
  | nil => cases hx
  | cons a p ih =>
    simp only [takeSlab] at hx; split at hx
    · rcases List.mem_cons.1 hx with hx | hx
      · exact .inl hx
      · exact .inr (by simp [hx])
    · rcases List.mem_cons.1 hx with hx | hx
      · exact .inr (by simp [hx])
      · rcases ih hx with h | h
        · exact .inl h
        · exact .inr (by simp [h])

/-- Grants change no channel record. -/
theorem creditLoop_channels (n s) : (creditLoop n s).fetch.channels = s.fetch.channels := by
  induction n generalizing s with
  | zero => rfl
  | succ n ih => simp only [creditLoop]; split; rfl; rw [ih]; rfl

/-- A channel that is not ARMED gains no slab from grants. -/
theorem creditLoop_ofChannel (n : Nat) (s : State) (c : Nat) (hs : (s.channel c).state ≠ .armed) (hp : ∀ h ∈ s.pool, h.ofChannel c = false) :
  ∀ h ∈ (creditLoop n s).pool, h.ofChannel c = false := by
  induction n generalizing s with
  | zero => exact hp
  | succ n ih =>
    simp only [creditLoop]; split
    · exact hp
    · rename_i d hd
      apply ih
      · exact hs
      · intro h hh
        rcases mem_takeSlab _ _ _ hh with h1 | h1
        · subst h1
          have := List.find?_some (creditTaker_spec s d hd).2
          simp [State.wantsCredit] at this
          simp [Holder.ofChannel]; rintro rfl; exact hs this.1
        · exact hp h h1

/-- Without an ARMED channel a credit point changes nothing. -/
theorem creditPoint_unarmed (u : State) (h : ∀ c, (u.channel c).state ≠ .armed) : creditPoint u = u := by
  have : u.creditTaker = none := by
    unfold State.creditTaker; split
    · rw [List.find?_eq_none]; intro c _; simp [State.wantsCredit, h c]
    · rfl
  unfold creditPoint Config.poolSlabs creditLoop; rw [this]

/-- Without an ARMED channel and a queued operation a scheduling point changes nothing. -/
theorem schedulePoint_unarmed (u : State) (h : ∀ c, (u.channel c).state ≠ .armed) (hq : u.store.queue = []) : schedulePoint u = u := by
  have e4 : u.fetchChoice = none := by
    have hp : ∀ c, u.programmable c = none := by
      intro c; unfold State.programmable; split; rfl
      rw [if_neg (by exact h c)]
    have he : ∀ c, u.erasable c = false := by
      intro c; unfold State.erasable; split; rfl
      have : ((u.channel c).state == .armed) = false := by have := h c; rw [← Bool.not_eq_true, beq_iff_eq]; exact this
      rw [this]; rfl
    unfold State.fetchChoice; split
    · have a1 : (channelsAfter u.fetch.lastGiven).findSome? (fun c => (u.programmable c).map fun i => (c, i)) = none := by
        rw [List.findSome?_eq_none_iff]; intro c _; rw [hp]; rfl
      rw [a1]
      have a2 : (channelsAfter u.fetch.lastGiven).find? u.erasable = none := by
        rw [List.find?_eq_none]; intro c _; simp [he]
      rw [a2]; rfl
    · rfl
  unfold schedulePoint; unfold scheduleLoop; rw [e4]; unfold selectPoint selectLoop
  have : u.selected = none := by simp [State.selected, hq]
  rw [this]; simp

end Sys2Proof.Machine
end

