-- ==== Sys2Proof/Laws/Light.lean ====
section
/-! SUPPORT. Laws/Light.lean: what the light's operations leave of its record, and how they keep its state judged and its
grant within its claim (R86, R107). -/

namespace Sys2Proof.Machine

open Sys2Proof

/-- A LIGHT event changes nothing of the light but its recorded events. -/
@[simp] theorem recordLight_record (k : Nat) (s : State) :
    (recordLight k s).light = { s.light with events := setEvent s.light.events k } := by
  simp [recordLight]

/-- The record after a change. -/
@[simp] theorem onLight_record (f : FrontLight → FrontLight) (s : State) : (s.onLight f).light = f s.light := rfl

/-- What the mix leaves of the light's record. -/
@[simp] theorem lightMix_light (s : State) :
    (lightMix s).light.level = s.light.level ∧ (lightMix s).light.levelTarget = s.light.levelTarget ∧
    (lightMix s).light.warmth = s.light.warmth ∧ (lightMix s).light.warmthTarget = s.light.warmthTarget ∧
    (lightMix s).light.claim = s.light.claim ∧ (lightMix s).light.follow = s.light.follow ∧
    (lightMix s).light.table = s.light.table ∧ (lightMix s).light.toggleLevel = s.light.toggleLevel ∧
    (lightMix s).light.toggledOff = s.light.toggledOff ∧ (lightMix s).light.drainLevel = s.light.drainLevel ∧
    (lightMix s).light.ramp = s.light.ramp ∧ (lightMix s).light.settle = s.light.settle ∧
    (lightMix s).light.arming = s.light.arming ∧ (lightMix s).light.latest = s.light.latest ∧
    (lightMix s).light.step = s.light.step ∧ (lightMix s).light.warmDiv = s.light.warmDiv ∧
    (lightMix s).light.coolDiv = s.light.coolDiv ∧ (lightMix s).light.pwmOn = s.light.pwmOn ∧
    (lightMix s).light.grant = s.light.grant ∧ (lightMix s).light.state = s.light.state ∧
    (lightMix s).light.events = s.light.events := by
  simp only [lightMix]
  simp

/-- What the judging of its state leaves of the light's record. -/
@[simp] theorem judgeLight_light (s : State) :
    (judgeLight s).light.level = s.light.level ∧ (judgeLight s).light.levelTarget = s.light.levelTarget ∧
    (judgeLight s).light.warmth = s.light.warmth ∧ (judgeLight s).light.warmthTarget = s.light.warmthTarget ∧
    (judgeLight s).light.claim = s.light.claim ∧ (judgeLight s).light.follow = s.light.follow ∧
    (judgeLight s).light.table = s.light.table ∧ (judgeLight s).light.toggleLevel = s.light.toggleLevel ∧
    (judgeLight s).light.toggledOff = s.light.toggledOff ∧ (judgeLight s).light.drainLevel = s.light.drainLevel ∧
    (judgeLight s).light.ramp = s.light.ramp ∧ (judgeLight s).light.settle = s.light.settle ∧
    (judgeLight s).light.arming = s.light.arming ∧ (judgeLight s).light.latest = s.light.latest ∧
    (judgeLight s).light.step = s.light.step ∧ (judgeLight s).light.warmDiv = s.light.warmDiv ∧
    (judgeLight s).light.coolDiv = s.light.coolDiv ∧ (judgeLight s).light.pwmOn = s.light.pwmOn ∧
    (judgeLight s).light.grant = s.light.grant ∧ (judgeLight s).light.warmDuty = s.light.warmDuty ∧
    (judgeLight s).light.coolDuty = s.light.coolDuty := by
  simp only [judgeLight]
  repeat' split
  all_goals simp

/-- The cut mark's judging leaves the light alone. -/
@[simp] theorem judgeCutMark_record (s : State) : (judgeCutMark s).light = s.light := by
  simp only [judgeCutMark]; split <;> simp

/-- What a new grant leaves of the light's record. -/
@[simp] theorem setGrant_light (g : Nat) (s : State) :
    (setGrant g s).light.level = s.light.level ∧ (setGrant g s).light.levelTarget = s.light.levelTarget ∧
    (setGrant g s).light.warmth = s.light.warmth ∧ (setGrant g s).light.warmthTarget = s.light.warmthTarget ∧
    (setGrant g s).light.claim = s.light.claim ∧ (setGrant g s).light.follow = s.light.follow ∧
    (setGrant g s).light.table = s.light.table ∧ (setGrant g s).light.toggleLevel = s.light.toggleLevel ∧
    (setGrant g s).light.toggledOff = s.light.toggledOff ∧ (setGrant g s).light.drainLevel = s.light.drainLevel ∧
    (setGrant g s).light.ramp = s.light.ramp ∧ (setGrant g s).light.settle = s.light.settle ∧
    (setGrant g s).light.arming = s.light.arming ∧ (setGrant g s).light.latest = s.light.latest ∧
    (setGrant g s).light.step = s.light.step ∧ (setGrant g s).light.warmDiv = s.light.warmDiv ∧
    (setGrant g s).light.coolDiv = s.light.coolDiv ∧ (setGrant g s).light.pwmOn = s.light.pwmOn := by
  simp only [setGrant]
  simp

/-- What the standing want leaves of the light's record. -/
@[simp] theorem standingWant_light (s : State) :
    (standingWant s).light.level = s.light.level ∧ (standingWant s).light.levelTarget = s.light.levelTarget ∧
    (standingWant s).light.warmth = s.light.warmth ∧ (standingWant s).light.warmthTarget = s.light.warmthTarget ∧
    (standingWant s).light.claim = s.light.claim ∧ (standingWant s).light.follow = s.light.follow ∧
    (standingWant s).light.table = s.light.table ∧ (standingWant s).light.toggleLevel = s.light.toggleLevel ∧
    (standingWant s).light.toggledOff = s.light.toggledOff ∧
    (standingWant s).light.drainLevel = s.light.drainLevel ∧ (standingWant s).light.ramp = s.light.ramp ∧
    (standingWant s).light.settle = s.light.settle ∧ (standingWant s).light.arming = s.light.arming ∧
    (standingWant s).light.latest = s.light.latest ∧ (standingWant s).light.step = s.light.step ∧
    (standingWant s).light.warmDiv = s.light.warmDiv ∧ (standingWant s).light.coolDiv = s.light.coolDiv ∧
    (standingWant s).light.pwmOn = s.light.pwmOn := by
  simp only [standingWant]
  repeat' split
  all_goals simp

/-- What a cut leaves of the light's record. -/
@[simp] theorem cutLight_light (g : Nat) (s : State) :
    (cutLight g s).light.level = s.light.level ∧ (cutLight g s).light.levelTarget = s.light.levelTarget ∧
    (cutLight g s).light.warmth = s.light.warmth ∧ (cutLight g s).light.warmthTarget = s.light.warmthTarget ∧
    (cutLight g s).light.claim = s.light.claim ∧ (cutLight g s).light.follow = s.light.follow ∧
    (cutLight g s).light.table = s.light.table ∧ (cutLight g s).light.toggleLevel = s.light.toggleLevel ∧
    (cutLight g s).light.toggledOff = s.light.toggledOff ∧ (cutLight g s).light.drainLevel = s.light.drainLevel ∧
    (cutLight g s).light.ramp = s.light.ramp ∧ (cutLight g s).light.settle = s.light.settle ∧
    (cutLight g s).light.arming = s.light.arming ∧ (cutLight g s).light.latest = s.light.latest ∧
    (cutLight g s).light.step = s.light.step ∧ (cutLight g s).light.warmDiv = s.light.warmDiv ∧
    (cutLight g s).light.coolDiv = s.light.coolDiv ∧ (cutLight g s).light.pwmOn = s.light.pwmOn := by
  simp only [cutLight]
  repeat' split
  all_goals simp

/-- What a decision pass's claims leaves of the light's record. -/
@[simp] theorem passLoop_light (n : Nat) (s : State) :
    (passLoop n s).light.level = s.light.level ∧ (passLoop n s).light.levelTarget = s.light.levelTarget ∧
    (passLoop n s).light.warmth = s.light.warmth ∧ (passLoop n s).light.warmthTarget = s.light.warmthTarget ∧
    (passLoop n s).light.claim = s.light.claim ∧ (passLoop n s).light.follow = s.light.follow ∧
    (passLoop n s).light.table = s.light.table ∧ (passLoop n s).light.toggleLevel = s.light.toggleLevel ∧
    (passLoop n s).light.toggledOff = s.light.toggledOff ∧ (passLoop n s).light.drainLevel = s.light.drainLevel ∧
    (passLoop n s).light.ramp = s.light.ramp ∧ (passLoop n s).light.settle = s.light.settle ∧
    (passLoop n s).light.arming = s.light.arming ∧ (passLoop n s).light.latest = s.light.latest ∧
    (passLoop n s).light.step = s.light.step ∧ (passLoop n s).light.warmDiv = s.light.warmDiv ∧
    (passLoop n s).light.coolDiv = s.light.coolDiv ∧ (passLoop n s).light.pwmOn = s.light.pwmOn := by
  induction n generalizing s with
  | zero => simp [passLoop]
  | succ n ih =>
    simp only [passLoop]
    repeat' split
    all_goals simp [ih]

/-- What a decision pass leaves of the light's record. -/
@[simp] theorem decisionPass_light (s : State) :
    (decisionPass s).light.level = s.light.level ∧ (decisionPass s).light.levelTarget = s.light.levelTarget ∧
    (decisionPass s).light.warmth = s.light.warmth ∧ (decisionPass s).light.warmthTarget = s.light.warmthTarget ∧
    (decisionPass s).light.claim = s.light.claim ∧ (decisionPass s).light.follow = s.light.follow ∧
    (decisionPass s).light.table = s.light.table ∧ (decisionPass s).light.toggleLevel = s.light.toggleLevel ∧
    (decisionPass s).light.toggledOff = s.light.toggledOff ∧
    (decisionPass s).light.drainLevel = s.light.drainLevel ∧ (decisionPass s).light.ramp = s.light.ramp ∧
    (decisionPass s).light.settle = s.light.settle ∧ (decisionPass s).light.arming = s.light.arming ∧
    (decisionPass s).light.latest = s.light.latest ∧ (decisionPass s).light.step = s.light.step ∧
    (decisionPass s).light.warmDiv = s.light.warmDiv ∧ (decisionPass s).light.coolDiv = s.light.coolDiv ∧
    (decisionPass s).light.pwmOn = s.light.pwmOn := by
  simp [decisionPass]

/-- What a look leaves of the light's record. -/
@[simp] theorem lookPass_light (s : State) :
    (lookPass s).light.level = s.light.level ∧ (lookPass s).light.levelTarget = s.light.levelTarget ∧
    (lookPass s).light.warmth = s.light.warmth ∧ (lookPass s).light.warmthTarget = s.light.warmthTarget ∧
    (lookPass s).light.claim = s.light.claim ∧ (lookPass s).light.follow = s.light.follow ∧
    (lookPass s).light.table = s.light.table ∧ (lookPass s).light.toggleLevel = s.light.toggleLevel ∧
    (lookPass s).light.toggledOff = s.light.toggledOff ∧ (lookPass s).light.drainLevel = s.light.drainLevel ∧
    (lookPass s).light.ramp = s.light.ramp ∧ (lookPass s).light.settle = s.light.settle ∧
    (lookPass s).light.arming = s.light.arming ∧ (lookPass s).light.latest = s.light.latest ∧
    (lookPass s).light.step = s.light.step ∧ (lookPass s).light.warmDiv = s.light.warmDiv ∧
    (lookPass s).light.coolDiv = s.light.coolDiv ∧ (lookPass s).light.pwmOn = s.light.pwmOn := by
  simp only [lookPass]
  repeat' split
  all_goals simp

/-- What a report, but for the claim, leaves of the light's record. -/
@[simp] theorem reportClaim_light (s : State) :
    (reportClaim s).light.level = s.light.level ∧ (reportClaim s).light.levelTarget = s.light.levelTarget ∧
    (reportClaim s).light.warmth = s.light.warmth ∧ (reportClaim s).light.warmthTarget = s.light.warmthTarget ∧
    (reportClaim s).light.follow = s.light.follow ∧ (reportClaim s).light.table = s.light.table ∧
    (reportClaim s).light.toggleLevel = s.light.toggleLevel ∧
    (reportClaim s).light.toggledOff = s.light.toggledOff ∧ (reportClaim s).light.drainLevel = s.light.drainLevel ∧
    (reportClaim s).light.ramp = s.light.ramp ∧ (reportClaim s).light.settle = s.light.settle ∧
    (reportClaim s).light.arming = s.light.arming ∧ (reportClaim s).light.latest = s.light.latest ∧
    (reportClaim s).light.step = s.light.step ∧ (reportClaim s).light.warmDiv = s.light.warmDiv ∧
    (reportClaim s).light.coolDiv = s.light.coolDiv ∧ (reportClaim s).light.pwmOn = s.light.pwmOn := by
  simp only [reportClaim]
  repeat' split
  all_goals simp

/-- What a change of targets leaves of the light's record. -/
@[simp] theorem targetsChanged_light (s : State) :
    (targetsChanged s).light.level = s.light.level ∧ (targetsChanged s).light.levelTarget = s.light.levelTarget ∧
    (targetsChanged s).light.warmth = s.light.warmth ∧
    (targetsChanged s).light.warmthTarget = s.light.warmthTarget ∧ (targetsChanged s).light.claim = s.light.claim ∧
    (targetsChanged s).light.follow = s.light.follow ∧ (targetsChanged s).light.table = s.light.table ∧
    (targetsChanged s).light.toggleLevel = s.light.toggleLevel ∧
    (targetsChanged s).light.toggledOff = s.light.toggledOff ∧
    (targetsChanged s).light.drainLevel = s.light.drainLevel ∧ (targetsChanged s).light.settle = s.light.settle ∧
    (targetsChanged s).light.arming = s.light.arming ∧ (targetsChanged s).light.latest = s.light.latest ∧
    (targetsChanged s).light.step = s.light.step ∧ (targetsChanged s).light.warmDiv = s.light.warmDiv ∧
    (targetsChanged s).light.coolDiv = s.light.coolDiv ∧ (targetsChanged s).light.pwmOn = s.light.pwmOn ∧
    (targetsChanged s).light.grant = s.light.grant ∧ (targetsChanged s).light.warmDuty = s.light.warmDuty ∧
    (targetsChanged s).light.coolDuty = s.light.coolDuty := by
  simp only [targetsChanged]
  repeat' split
  all_goals simp

/-- What the ramp's next step leaves of the light's record. -/
@[simp] theorem rampNext_light (s : State) :
    (rampNext s).light.level = s.light.level ∧ (rampNext s).light.levelTarget = s.light.levelTarget ∧
    (rampNext s).light.warmth = s.light.warmth ∧ (rampNext s).light.warmthTarget = s.light.warmthTarget ∧
    (rampNext s).light.claim = s.light.claim ∧ (rampNext s).light.follow = s.light.follow ∧
    (rampNext s).light.table = s.light.table ∧ (rampNext s).light.toggleLevel = s.light.toggleLevel ∧
    (rampNext s).light.toggledOff = s.light.toggledOff ∧ (rampNext s).light.drainLevel = s.light.drainLevel ∧
    (rampNext s).light.settle = s.light.settle ∧ (rampNext s).light.arming = s.light.arming ∧
    (rampNext s).light.latest = s.light.latest ∧ (rampNext s).light.step = s.light.step ∧
    (rampNext s).light.warmDiv = s.light.warmDiv ∧ (rampNext s).light.coolDiv = s.light.coolDiv ∧
    (rampNext s).light.pwmOn = s.light.pwmOn ∧ (rampNext s).light.grant = s.light.grant ∧
    (rampNext s).light.warmDuty = s.light.warmDuty ∧ (rampNext s).light.coolDuty = s.light.coolDuty := by
  simp only [rampNext]
  repeat' split
  all_goals simp

/-- After a judging the state is the judged one. -/
@[simp] theorem judgeLight_state (s : State) : (judgeLight s).light.state = s.light.judged := by
  simp only [judgeLight]
  repeat' split
  all_goals simp

/-- Which state is judged depends on the currents, the targets, the claim and the grant alone (R86). -/
theorem judged_congr {l m : FrontLight} (h1 : l.level = m.level) (h2 : l.levelTarget = m.levelTarget)
    (h3 : l.warmth = m.warmth) (h4 : l.warmthTarget = m.warmthTarget) (h5 : l.claim = m.claim)
    (h6 : l.grant = m.grant) : l.judged = m.judged := by
  simp only [FrontLight.judged, h1, h2, h3, h4, h5, h6]

/-- A report sets the claim to what R89 gives. -/
@[simp] theorem reportClaim_claim (s : State) : (reportClaim s).light.claim = s.lightClaimMa := by
  simp only [reportClaim]
  repeat' split
  all_goals simp

/-- The ramp timer after a wake or a warm reset: nothing else changes. -/
theorem rampArm_eq (s : State) :
    rampArm s = { s with light := { s.light with ramp := if s.light.differs = true then s.inMs 10 else s.light.ramp } } := by
  unfold rampArm; split <;> rfl

/-- The follow step timer after a return or a wake: nothing else changes. -/
theorem followResume_eq (s : State) :
    followResume s = { s with light := { s.light with step := if s.light.follow = true then s.inMs 500 else s.light.step } } := by
  unfold followResume; split <;> rfl

/-- What a wake does to the light. -/
theorem lightWake_eq (s : State) :
    lightWake s = { s with light := { s.light with
      pwmOn := true, warmDuty := s.warmDutyNow, coolDuty := s.coolDutyNow, warmDiv := s.settingNat .pwmDiv,
      coolDiv := s.settingNat .pwmDiv, ramp := if s.light.differs = true then s.inMs 10 else s.light.ramp,
      step := if s.light.follow = true then s.inMs 500 else s.light.step } } := by
  unfold lightWake; rw [followResume_eq, rampArm_eq]; rfl

end Sys2Proof.Machine
end

