-- ==== Sys2Proof/Laws/Link.lean ====
section
/-! SUPPORT. Laws/Link.lean: settings and waiting notices. -/

namespace Sys2Proof.Machine

open Sys2Proof

/-- A stored setting reads back, and every other setting stays. -/
theorem setting_putSetting (s : State) (a b : Setting) (v : Int) (h : s.settings.length = 38) : (s.putSetting a v).setting b = if a = b then v else s.setting b := by
  simp only [State.setting, State.putSetting]
  rw [List.getD_eq_getElem?_getD, List.getElem?_set]
  by_cases hab : a = b
  · subst hab
    have : (settingRow a).number - 1 < s.settings.length := by rw [h]; cases a <;> decide
    simp [this]
  · have : ¬ ((settingRow a).number - 1 = (settingRow b).number - 1) := by
      cases a <;> cases b <;> first | (exact absurd rfl hab) | decide
    simp [this, hab, List.getD_eq_getElem?_getD]

/-- Strictly ascending integers. -/
theorem risingInts_iff (l : List Int) : risingInts l = true ↔ l.Pairwise (· < ·) := by
  match l with
  | [] => simp [risingInts]
  | [a] => simp [risingInts]
  | a :: b :: rest =>
    simp only [risingInts, Bool.and_eq_true, decide_eq_true_eq, risingInts_iff (b :: rest)]
    constructor
    · rintro ⟨h, hp⟩
      refine List.pairwise_cons.2 ⟨?_, hp⟩
      intro x hx
      rcases List.mem_cons.1 hx with rfl | hx
      · exact h
      · have := (List.pairwise_cons.1 hp).1 x hx; omega
    · intro hp; have := List.pairwise_cons.1 hp; exact ⟨this.1 b (by simp), this.2⟩

/-- Strictly ascending first components. -/
theorem risingPairs_iff (l : List (Nat × Nat)) : risingPairs l = true ↔ (l.map Prod.fst).Pairwise (· < ·) := by
  match l with
  | [] => simp [risingPairs]
  | [a] => simp [risingPairs]
  | a :: b :: rest =>
    simp only [risingPairs, Bool.and_eq_true, decide_eq_true_eq, risingPairs_iff (b :: rest), List.map_cons]
    constructor
    · rintro ⟨h, hp⟩
      refine List.pairwise_cons.2 ⟨?_, hp⟩
      intro x hx
      rcases List.mem_cons.1 hx with rfl | hx
      · exact h
      · have := (List.pairwise_cons.1 hp).1 x hx; omega
    · intro hp; have := List.pairwise_cons.1 hp; exact ⟨this.1 b.1 (by simp), this.2⟩

/-- The checks of LIMITS, written out (R102). -/
theorem limitsOk_iff (pts) : limitsOk pts = true ↔ 2 ≤ pts.length ∧ (∀ p ∈ pts, p.2 ≤ 1000) ∧ (pts.map Prod.fst).Pairwise (· < ·) := by
  simp only [limitsOk, Bool.and_eq_true, risingPairs_iff, decide_eq_true_eq, List.all_eq_true, and_assoc]

/-- Kinds are told apart by their index. -/
theorem noticeKind_index_inj {j k : NoticeKind} (h : j.index = k.index) : j = k := by cases j <;> cases k <;> first | rfl | cases h

/-- The kinds' indices lie below 9. -/
theorem noticeKind_index_lt (k : NoticeKind) : k.index < 9 := by cases k <;> decide

/-- A kind waits when the queue holds its waiting notice. -/
theorem noticeWaits_iff (s : State) (k) : s.noticeWaits k = true ↔ (OutItem.waiting k) ∈ s.link.out := by
  simp only [State.noticeWaits, List.any_eq_true]
  constructor
  · rintro ⟨i, hi, h⟩; split at h
    · simp at h; subst h; exact hi
    · cases h
  · intro h; exact ⟨_, h, by simp⟩

end Sys2Proof.Machine
end

