-- ==== Sys2Proof/Laws/Memory.lean ====
section
/-! SUPPORT. Laws/Memory.lean: the content of the book store: what a read answers after a write, an erase and a program,
and that each keeps the canonical form (R133, log 5). -/

namespace Sys2Proof.Machine

open Sys2Proof

/-! ## The canonical form -/

/-- The canonical form: rising addresses, and no erased byte listed. -/
theorem memWf_iff (m : Memory) :
    memWf m = true ↔ m.Pairwise (fun c d => c.1 < d.1) ∧ ∀ c ∈ m, c.2 ≠ Config.erasedByte := by
  induction m with
  | nil => simp [memWf]
  | cons c m ih =>
    cases m with
    | nil => simp [memWf]
    | cons d rest =>
      simp only [memWf, Bool.and_eq_true, decide_eq_true_eq, ih, List.pairwise_cons, List.mem_cons,
        forall_eq_or_imp]
      refine ⟨fun ⟨⟨h1, h2⟩, ⟨h3, h4⟩, h5⟩ => ⟨⟨⟨h2, fun x hx => Nat.lt_trans h2 (h3 x hx)⟩, h3, h4⟩, h1, h5⟩, ?_⟩
      exact fun ⟨⟨⟨h2, _⟩, h3⟩, h1, h5⟩ => ⟨⟨h1, h2⟩, h3, h5⟩

/-- A filtered content stays canonical. -/
theorem memWf_filter (p : Host.Cell → Bool) {m : Memory} (h : memWf m = true) : memWf (m.filter p) = true := by
  rw [memWf_iff] at h ⊢
  exact ⟨h.1.filter p, fun c hc => h.2 c (List.mem_filter.1 hc).1⟩

/-- The cells of a run of bytes lie at its addresses. -/
theorem mem_cellsFrom {a : Nat} {bs : List Byte} {c : Host.Cell} (h : c ∈ cellsFrom a bs) :
    a ≤ c.1 ∧ c.1 < a + bs.length ∧ c.2 ≠ Config.erasedByte := by
  induction bs generalizing a with
  | nil => cases h
  | cons b bs ih =>
    simp only [cellsFrom] at h
    split at h
    · have := ih h; exact ⟨by omega, by simp only [List.length_cons]; omega, this.2.2⟩
    · rename_i hb
      rcases List.mem_cons.1 h with rfl | h
      · simp [hb]
      · have := ih h; exact ⟨by omega, by simp only [List.length_cons]; omega, this.2.2⟩

/-- The cells of a run of bytes rise. -/
theorem cellsFrom_rising (a : Nat) (bs : List Byte) : (cellsFrom a bs).Pairwise fun c d => c.1 < d.1 := by
  induction bs generalizing a with
  | nil => exact .nil
  | cons b bs ih =>
    simp only [cellsFrom]
    split
    · exact ih _
    · exact List.pairwise_cons.2 ⟨fun d hd => by have := mem_cellsFrom hd; omega, ih _⟩

/-- A write keeps the canonical form. -/
theorem memWf_memWrite (a : Nat) (bs : List Byte) {m : Memory} (h : memWf m = true) :
    memWf (memWrite m a bs) = true := by
  rw [memWf_iff] at h ⊢
  simp only [memWrite, List.pairwise_append, List.mem_append, List.mem_filter, decide_eq_true_eq]
  refine ⟨⟨⟨h.1.filter _, cellsFrom_rising a bs, ?_⟩, h.1.filter _, ?_⟩, ?_⟩
  · intro c hc d hd
    have := mem_cellsFrom hd; omega
  · rintro c (hc | hc) d hd
    · omega
    · have := mem_cellsFrom hc; omega
  · rintro c ((hc | hc) | hc)
    · exact h.2 c hc.1
    · exact (mem_cellsFrom hc).2.2
    · exact h.2 c hc.1

/-- An erase keeps the canonical form. -/
theorem memWf_memErase (a n : Nat) {m : Memory} (h : memWf m = true) : memWf (memErase m a n) = true :=
  memWf_filter _ h

/-- A program keeps the canonical form. -/
theorem memWf_memProgram (a : Nat) (bs : List Byte) {m : Memory} (h : memWf m = true) :
    memWf (memProgram m a bs) = true :=
  memWf_memWrite _ _ h

/-! ## Reads -/

/-- A read answers the first cell at its address, and the erased byte if there is none. -/
theorem memRead_eq_of_not_mem {m : Memory} {x : Nat} (h : ∀ c ∈ m, c.1 ≠ x) : memRead m x = Config.erasedByte := by
  have : m.find? (fun c => c.1 == x) = none := by
    rw [List.find?_eq_none]; intro c hc; simpa using h c hc
  simp [memRead, this]

/-- A read of two contents one after the other. -/
theorem memRead_append (m n : Memory) (x : Nat) :
    memRead (m ++ n) x = if ∃ c ∈ m, c.1 = x then memRead m x else memRead n x := by
  by_cases h : ∃ c ∈ m, c.1 = x
  · have : (m.find? fun c => c.1 == x).isSome = true := by
      obtain ⟨c, hc, hx⟩ := h
      rw [List.find?_isSome]; exact ⟨c, hc, by simpa using hx⟩
    obtain ⟨c, hc⟩ := Option.isSome_iff_exists.1 this
    rw [if_pos h]
    simp [memRead, List.find?_append, hc]
  · have : m.find? (fun c => c.1 == x) = none := by
      rw [List.find?_eq_none]; intro c hc hx; exact h ⟨c, hc, by simpa using hx⟩
    rw [if_neg h]
    simp [memRead, List.find?_append, this]

/-- A filter that keeps an address keeps what a read of it answers. -/
theorem memRead_filter_of_keeps (p : Host.Cell → Bool) (m : Memory) (x : Nat) (h : ∀ c ∈ m, c.1 = x → p c = true) :
    memRead (m.filter p) x = memRead m x := by
  induction m with
  | nil => rfl
  | cons c m ih =>
    have ih := ih fun d hd => h d (List.mem_cons_of_mem _ hd)
    by_cases hx : c.1 = x
    · have hp := h c (List.mem_cons_self ..) hx
      simp [memRead, hp, hx]
    · by_cases hp : p c = true
      · simp only [List.filter_cons, hp, if_true]
        simpa [memRead, hx] using ih
      · simp only [List.filter_cons, hp]
        simpa [memRead, hx] using ih

/-- A read of the cells of a run of bytes. -/
theorem memRead_cellsFrom (a : Nat) (bs : List Byte) (i : Nat) (h : i < bs.length) :
    memRead (cellsFrom a bs) (a + i) = bs.getD i 0 := by
  induction bs generalizing a i with
  | nil => cases h
  | cons b bs ih =>
    have none_at : memRead (cellsFrom (a + 1) bs) a = Config.erasedByte :=
      memRead_eq_of_not_mem fun c hc => by have := mem_cellsFrom hc; omega
    cases i with
    | zero =>
      simp only [cellsFrom]
      split
      · rename_i hb; simpa [hb] using none_at
      · simp [memRead]
    | succ i =>
      have ih := ih (a + 1) i (by simpa using h)
      have e : a + (i + 1) = a + 1 + i := by omega
      simp only [cellsFrom]
      split
      · rw [e, ih]; rfl
      · have ne : (a == a + 1 + i) = false := by simp; omega
        have : memRead ((a, b) :: cellsFrom (a + 1) bs) (a + 1 + i) = memRead (cellsFrom (a + 1) bs) (a + 1 + i) := by
          simp [memRead, ne]
        rw [e, this, ih]; rfl

/-- Read after write: the byte written. -/
theorem memRead_memWrite_inside (m : Memory) (a : Nat) (bs : List Byte) (i : Nat) (h : i < bs.length) :
    memRead (memWrite m a bs) (a + i) = bs.getD i 0 := by
  have below : ¬ ∃ c ∈ m.filter (fun c => decide (c.1 < a)), c.1 = a + i := by
    rintro ⟨c, hc, hx⟩; simp at hc; omega
  have above : memRead (m.filter fun c => decide (a + bs.length ≤ c.1)) (a + i) = Config.erasedByte :=
    memRead_eq_of_not_mem fun c hc => by simp at hc; omega
  rw [memWrite, List.append_assoc, memRead_append, if_neg below, memRead_append]
  split
  · exact memRead_cellsFrom a bs i h
  · rename_i hn
    rw [above, ← memRead_cellsFrom a bs i h, memRead_eq_of_not_mem]
    exact fun c hc hx => hn ⟨c, hc, hx⟩

/-- Read after write: every other byte is as before. -/
theorem memRead_memWrite_outside (m : Memory) (a : Nat) (bs : List Byte) (x : Nat)
    (h : x < a ∨ a + bs.length ≤ x) : memRead (memWrite m a bs) x = memRead m x := by
  have inner : ¬ ∃ c ∈ cellsFrom a bs, c.1 = x := by
    rintro ⟨c, hc, hx⟩; have := mem_cellsFrom hc; omega
  rw [memWrite, List.append_assoc, memRead_append, memRead_append, if_neg inner]
  rcases h with h | h
  · split
    · exact memRead_filter_of_keeps _ m x fun c _ hx => by simp; omega
    · rename_i hn
      have : ∀ c ∈ m, c.1 ≠ x := fun c hc hx => hn ⟨c, by simp [hc]; omega, hx⟩
      rw [memRead_eq_of_not_mem this, memRead_eq_of_not_mem]
      exact fun c hc => this c (List.mem_filter.1 hc).1
  · have low : ¬ ∃ c ∈ m.filter (fun c => decide (c.1 < a)), c.1 = x := by
      rintro ⟨c, hc, hx⟩; simp at hc; omega
    rw [if_neg low]
    exact memRead_filter_of_keeps _ m x fun c _ hx => by simp; omega

/-- An erased byte reads as the erased value (R133). -/
theorem memRead_memErase_inside (m : Memory) (a n x : Nat) (h : a ≤ x ∧ x < a + n) :
    memRead (memErase m a n) x = Config.erasedByte :=
  memRead_eq_of_not_mem fun c hc => by simp [memErase] at hc; omega

/-- An erase leaves every other byte. -/
theorem memRead_memErase_outside (m : Memory) (a n x : Nat) (h : x < a ∨ a + n ≤ x) :
    memRead (memErase m a n) x = memRead m x :=
  memRead_filter_of_keeps _ m x fun c _ hx => by simp; omega

/-- A programmed byte is the AND of old and new (R133). -/
theorem memRead_memProgram_inside (m : Memory) (a : Nat) (bs : List Byte) (i : Nat) (h : i < bs.length) :
    memRead (memProgram m a bs) (a + i) = memRead m (a + i) &&& bs.getD i 0 := by
  rw [memProgram, memRead_memWrite_inside _ _ _ _ (by simpa [memReadN] using h)]
  simp [memReadN, List.getD_eq_getElem?_getD, h]

/-- A program leaves every other byte. -/
theorem memRead_memProgram_outside (m : Memory) (a : Nat) (bs : List Byte) (x : Nat)
    (h : x < a ∨ a + bs.length ≤ x) : memRead (memProgram m a bs) x = memRead m x :=
  memRead_memWrite_outside _ _ _ _ (by simpa [memReadN] using h)

/-- The content at reset is canonical. -/
theorem memWf_reset : memWf State.reset.content = true := rfl

end Sys2Proof.Machine
end

