-- ==== Sys2Proof/Laws/PerInstr.lean ====
section
/-! SUPPORT. Laws/PerInstr.lean: one lemma per command: the opcode table gives its row no bits, so no word of any width spells
it. -/

namespace Sys2Proof.Laws

/-- No word of any width spells the command. -/
def Unencoded.Statement (i : Instr) : Prop := ∀ nbits w : Nat, decodeTableWord nbits w ≠ some i

/-- Nothing is spelled. -/
theorem unencoded_all (i : Instr) : Unencoded.Statement i := by
  intro _ _ h
  cases h

theorem Unencoded.coldReset (service : Bool) : Unencoded.Statement (.coldReset service) := unencoded_all _
theorem Unencoded.warmReset : Unencoded.Statement .warmReset := unencoded_all _
theorem Unencoded.resetRise : Unencoded.Statement .resetRise := unencoded_all _
theorem Unencoded.writeTransfer (bytes : List Byte) : Unencoded.Statement (.writeTransfer bytes) := unencoded_all _
theorem Unencoded.readTransfer : Unencoded.Statement .readTransfer := unencoded_all _
theorem Unencoded.packetLeft : Unencoded.Statement .packetLeft := unencoded_all _
theorem Unencoded.unknownTransfer : Unencoded.Statement .unknownTransfer := unencoded_all _
theorem Unencoded.chipSelectFall : Unencoded.Statement .chipSelectFall := unencoded_all _
theorem Unencoded.pixels : Unencoded.Statement .pixels := unencoded_all _
theorem Unencoded.toneMap : Unencoded.Statement .toneMap := unencoded_all _
theorem Unencoded.update : Unencoded.Statement .update := unencoded_all _
theorem Unencoded.abort : Unencoded.Statement .abort := unencoded_all _
theorem Unencoded.pageTag : Unencoded.Statement .pageTag := unencoded_all _
theorem Unencoded.cacheOpen : Unencoded.Statement .cacheOpen := unencoded_all _
theorem Unencoded.cacheReady : Unencoded.Statement .cacheReady := unencoded_all _
theorem Unencoded.cacheDrop : Unencoded.Statement .cacheDrop := unencoded_all _
theorem Unencoded.turn : Unencoded.Statement .turn := unencoded_all _
theorem Unencoded.waveBegin : Unencoded.Statement .waveBegin := unencoded_all _
theorem Unencoded.waveData : Unencoded.Statement .waveData := unencoded_all _
theorem Unencoded.waveEnd : Unencoded.Statement .waveEnd := unencoded_all _
theorem Unencoded.waveDrop : Unencoded.Statement .waveDrop := unencoded_all _
theorem Unencoded.bands : Unencoded.Statement .bands := unencoded_all _
theorem Unencoded.light : Unencoded.Statement .light := unencoded_all _
theorem Unencoded.follow : Unencoded.Statement .follow := unencoded_all _
theorem Unencoded.fetchOpen : Unencoded.Statement .fetchOpen := unencoded_all _
theorem Unencoded.fetchSums : Unencoded.Statement .fetchSums := unencoded_all _
theorem Unencoded.fetchArm : Unencoded.Statement .fetchArm := unencoded_all _
theorem Unencoded.fetchClose : Unencoded.Statement .fetchClose := unencoded_all _
theorem Unencoded.fetchStatus : Unencoded.Statement .fetchStatus := unencoded_all _
theorem Unencoded.storeRead : Unencoded.Statement .storeRead := unencoded_all _
theorem Unencoded.storeProgram : Unencoded.Statement .storeProgram := unencoded_all _
theorem Unencoded.storeErase : Unencoded.Statement .storeErase := unencoded_all _
theorem Unencoded.set : Unencoded.Statement .set := unencoded_all _
theorem Unencoded.get : Unencoded.Statement .get := unencoded_all _
theorem Unencoded.status : Unencoded.Statement .status := unencoded_all _
theorem Unencoded.limits : Unencoded.Statement .limits := unencoded_all _
theorem Unencoded.doze : Unencoded.Statement .doze := unencoded_all _
theorem Unencoded.sleep : Unencoded.Statement .sleep := unencoded_all _
theorem Unencoded.wake : Unencoded.Statement .wake := unencoded_all _
theorem Unencoded.statusRead : Unencoded.Statement .statusRead := unencoded_all _
theorem Unencoded.refetchRead (channel : Byte) : Unencoded.Statement (.refetchRead channel) := unencoded_all _
theorem Unencoded.chunkHeader (bytes : List Byte) : Unencoded.Statement (.chunkHeader bytes) := unencoded_all _
theorem Unencoded.chunkFrameEnd (payload : List Byte) : Unencoded.Statement (.chunkFrameEnd payload) := unencoded_all _
theorem Unencoded.radioAttnRise (high : Bool) : Unencoded.Statement (.radioAttnRise high) := unencoded_all _
theorem Unencoded.keyEdge (key : Key) (pressed : Bool) : Unencoded.Statement (.keyEdge key pressed) := unencoded_all _
theorem Unencoded.debounceExpiry (key : Key) : Unencoded.Statement (.debounceExpiry key) := unencoded_all _
theorem Unencoded.longTimerExpiry (key : Key) : Unencoded.Statement (.longTimerExpiry key) := unencoded_all _
theorem Unencoded.runTick (key : Key) : Unencoded.Statement (.runTick key) := unencoded_all _
theorem Unencoded.frameBoundary : Unencoded.Statement .frameBoundary := unencoded_all _
theorem Unencoded.conversionEnd (raw : Nat) : Unencoded.Statement (.conversionEnd raw) := unencoded_all _
theorem Unencoded.tempIntervalExpiry : Unencoded.Statement .tempIntervalExpiry := unencoded_all _
theorem Unencoded.sampleTimerExpiry : Unencoded.Statement .sampleTimerExpiry := unencoded_all _
theorem Unencoded.rampStep : Unencoded.Statement .rampStep := unencoded_all _
theorem Unencoded.followStep : Unencoded.Statement .followStep := unencoded_all _
theorem Unencoded.followSettleExpiry : Unencoded.Statement .followSettleExpiry := unencoded_all _
theorem Unencoded.moderationSettleExpiry (kind : Moderated) : Unencoded.Statement (.moderationSettleExpiry kind) := unencoded_all _
theorem Unencoded.moderationAbsoluteExpiry (kind : Moderated) : Unencoded.Statement (.moderationAbsoluteExpiry kind) := unencoded_all _
theorem Unencoded.drainTimerExpiry : Unencoded.Statement .drainTimerExpiry := unencoded_all _
theorem Unencoded.wakeTimerExpiry : Unencoded.Statement .wakeTimerExpiry := unencoded_all _
theorem Unencoded.resleepTimerExpiry : Unencoded.Statement .resleepTimerExpiry := unencoded_all _
theorem Unencoded.selfRefreshExitEnd : Unencoded.Statement .selfRefreshExitEnd := unencoded_all _
theorem Unencoded.flashReadDone : Unencoded.Statement .flashReadDone := unencoded_all _
theorem Unencoded.flashPageDone : Unencoded.Statement .flashPageDone := unencoded_all _
theorem Unencoded.flashEraseDone : Unencoded.Statement .flashEraseDone := unencoded_all _
theorem Unencoded.flashFailure : Unencoded.Statement .flashFailure := unencoded_all _
theorem Unencoded.flashSuspended : Unencoded.Statement .flashSuspended := unencoded_all _
theorem Unencoded.suspendNoAnswer : Unencoded.Statement .suspendNoAnswer := unencoded_all _
theorem Unencoded.minRunPoint : Unencoded.Statement .minRunPoint := unencoded_all _
theorem Unencoded.runningTimeOverrun : Unencoded.Statement .runningTimeOverrun := unencoded_all _
theorem Unencoded.flashResetDone : Unencoded.Statement .flashResetDone := unencoded_all _
theorem Unencoded.flashResetTimeout : Unencoded.Statement .flashResetTimeout := unencoded_all _
theorem Unencoded.pwmPeriodStart (channel : LightChannel) : Unencoded.Statement (.pwmPeriodStart channel) := unencoded_all _

end Sys2Proof.Laws
end

