-- ==== Sys2Proof/Laws/Planes.lean ====
section
/-! SUPPORT. Laws/Planes.lean: what reading a pixel gives after each plane operation, and that the operations keep the
pixels of a plane strictly rising. -/

namespace Sys2Proof.Machine

open Sys2Proof

/-- The level listed for a pixel. -/
def lookLevel (p : Plane) (k : Nat) : Option (Nat × Nat) := p.find? fun c => c.1 == k

/-- A plane lists strictly rising pixels. -/
def rising (p : Plane) : Prop := p.Pairwise fun a b => a.1 < b.1

theorem planeLevel_look (p : Plane) (k : Nat) : planeLevel p k = ((lookLevel p k).map Prod.snd).getD 15 := by
  unfold planeLevel lookLevel; split <;> rename_i h <;> rw [h] <;> rfl

theorem lookLevel_none {p : Plane} {k : Nat} (h : ∀ c ∈ p, c.1 ≠ k) : lookLevel p k = none := by
  unfold lookLevel; rw [List.find?_eq_none]; intro c hc; simpa using h c hc

theorem lookLevel_key {p : Plane} {k : Nat} {c : Nat × Nat} (h : lookLevel p k = some c) : c.1 = k ∧ c ∈ p := by
  unfold lookLevel at h
  have h1 := List.find?_some h
  exact ⟨by simpa using h1, List.mem_of_find?_eq_some h⟩

theorem lookLevel_cons (c : Nat × Nat) (p : Plane) (k : Nat) :
    lookLevel (c :: p) k = if c.1 = k then some c else lookLevel p k := by
  unfold lookLevel; rw [List.find?_cons]
  by_cases h : c.1 = k
  · simp [h]
  · have : (c.1 == k) = false := by simpa using h
    rw [this, if_neg h]

theorem mem_mergeStep (x : Nat × Nat) (more : Plane → Plane) (xs ys : Plane)
    (hm : ∀ zs, ∀ c, c ∈ more zs ↔ c ∈ xs ∨ c ∈ zs) (c : Nat × Nat) :
    c ∈ mergeStep x more xs ys ↔ c ∈ x :: xs ∨ c ∈ ys := by
  induction ys with
  | nil => simp [mergeStep]
  | cons y ys ih =>
    unfold mergeStep; split
    · simp only [List.mem_cons, hm]; constructor <;> (intro h; rcases h with h | h <;> simp_all) <;> grind
    · simp only [List.mem_cons, ih]; grind

theorem mem_mergeCells (xs ys : Plane) (c : Nat × Nat) : c ∈ mergeCells xs ys ↔ c ∈ xs ∨ c ∈ ys := by
  induction xs generalizing ys c with
  | nil => simp [mergeCells]
  | cons x xs ih => unfold mergeCells; exact mem_mergeStep x _ xs ys (fun zs c => ih zs c) c

/-- A pixel listed in one of the two lists at most reads in the merge as it does in that list. -/
theorem look_mergeCells (xs ys : Plane) (k : Nat) (h : (∀ c ∈ xs, c.1 ≠ k) ∨ ∀ c ∈ ys, c.1 ≠ k) :
    lookLevel (mergeCells xs ys) k = (lookLevel xs k).or (lookLevel ys k) := by
  have key : ∀ xs ys : Plane, ((∀ c ∈ xs, c.1 ≠ k) ∨ ∀ c ∈ ys, c.1 ≠ k) →
      lookLevel (mergeCells xs ys) k = (lookLevel xs k).or (lookLevel ys k) := by
    intro xs
    induction xs with
    | nil => intro ys _; simp [mergeCells, lookLevel]
    | cons x xs ih =>
      intro ys h
      unfold mergeCells
      induction ys with
      | nil => simp [mergeStep, lookLevel]
      | cons y ys ihy =>
        have h' : (∀ c ∈ x :: xs, c.1 ≠ k) ∨ ∀ c ∈ ys, c.1 ≠ k :=
          h.imp id fun h c hc => h c (List.mem_cons_of_mem _ hc)
        unfold mergeStep; split
        · have := ih (y :: ys) (h.imp (fun h c hc => h c (List.mem_cons_of_mem _ hc)) id)
          rw [lookLevel_cons, lookLevel_cons, this]; split <;> simp
        · rw [lookLevel_cons, ihy h']
          by_cases hy : y.1 = k
          · rcases h with h | h
            · rw [lookLevel_none h, lookLevel_cons y]; simp [hy]
            · exact absurd hy (h y (by simp))
          · rw [lookLevel_cons y]; simp [hy]
  exact key xs ys h

theorem rising_mergeCells {xs ys : Plane} (hx : rising xs) (hy : rising ys) (h : ∀ a ∈ xs, ∀ b ∈ ys, a.1 ≠ b.1) :
    rising (mergeCells xs ys) := by
  induction xs generalizing ys with
  | nil => simpa [mergeCells] using hy
  | cons x xs ih =>
    unfold mergeCells
    induction ys with
    | nil => simpa [mergeStep] using hx
    | cons y ys ihy =>
      have hx' := List.pairwise_cons.1 hx
      have hy' := List.pairwise_cons.1 hy
      unfold mergeStep; split
      · rename_i hlt
        refine List.pairwise_cons.2 ⟨?_, ih hx'.2 hy fun a ha b hb => h a (List.mem_cons_of_mem _ ha) b hb⟩
        intro c hc
        rcases (mem_mergeCells _ _ _).1 hc with hc | hc
        · exact hx'.1 c hc
        · rcases List.mem_cons.1 hc with rfl | hc
          · exact hlt
          · exact Nat.lt_trans hlt (hy'.1 c hc)
      · rename_i hge
        have hne := h x (by simp) y (by simp)
        have hlt : y.1 < x.1 := by omega
        refine List.pairwise_cons.2 ⟨?_, ihy hy'.2 fun a ha b hb => h a ha b (List.mem_cons_of_mem _ hb)⟩
        intro c hc
        have := (mem_mergeStep x (mergeCells xs) xs ys (fun zs c => mem_mergeCells xs zs c) c).1 hc
        rcases this with hc | hc
        · rcases List.mem_cons.1 hc with rfl | hc
          · exact hlt
          · exact Nat.lt_trans hlt (hx'.1 c hc)
        · exact hy'.1 c hc

theorem rising_filter (f : Nat × Nat → Bool) {p : Plane} (h : rising p) : rising (p.filter f) := h.filter f

theorem look_outside (r : Rect) (p : Plane) (k : Nat) :
    lookLevel (outside r p) k = if r.holds k then none else lookLevel p k := by
  unfold outside
  induction p with
  | nil => simp [lookLevel]
  | cons c p ih =>
    rw [List.filter_cons, lookLevel_cons]
    by_cases hc : c.1 = k <;> by_cases hk : r.holds c.1 = true <;> subst_vars <;> simp_all [lookLevel_cons]

theorem look_inside (r : Rect) (p : Plane) (k : Nat) :
    lookLevel (inside r p) k = if r.holds k then lookLevel p k else none := by
  unfold inside
  induction p with
  | nil => simp [lookLevel]
  | cons c p ih =>
    rw [List.filter_cons, lookLevel_cons]
    by_cases hc : c.1 = k <;> by_cases hk : r.holds c.1 = true <;> subst_vars <;> simp_all [lookLevel_cons]

theorem level_notBlank {p : Plane} (h : rising p) (k : Nat) : planeLevel (notBlank p) k = planeLevel p k := by
  rw [planeLevel_look, planeLevel_look]
  unfold notBlank
  induction p with
  | nil => rfl
  | cons c p ih =>
    have h' := List.pairwise_cons.1 h
    rw [List.filter_cons, lookLevel_cons]
    by_cases hb : c.2 = 15
    · simp only [Config.blankLevel, hb, bne_self_eq_false, Bool.false_eq_true, if_false]
      simp only [Config.blankLevel] at ih
      rw [ih h'.2]
      by_cases hc : c.1 = k
      · rw [lookLevel_none (fun d hd => by have := h'.1 d hd; omega)]; simp [hc, hb]
      · simp [hc]
    · have : (c.2 != Config.blankLevel) = true := by simp [Config.blankLevel, hb]
      rw [this]; simp only [if_true]
      rw [lookLevel_cons]
      split
      · rfl
      · exact ih h'.2

theorem rising_notBlank {p : Plane} (h : rising p) : rising (notBlank p) := h.filter _

theorem rising_range_map (n : Nat) (g : Nat → Nat) : rising ((List.range n).map fun k => (k, g k)) := by
  unfold rising; rw [List.pairwise_map]; exact List.pairwise_lt_range

theorem look_range_map (n : Nat) (g : Nat → Nat) (k : Nat) (h : k < n) :
    lookLevel ((List.range n).map fun k => (k, g k)) k = some (k, g k) := by
  unfold lookLevel
  rw [List.find?_map]
  have : ((List.range n).find? fun x => x == k) = some k := by
    rw [List.find?_range_eq_some]
    exact ⟨by simp, by simpa using h, fun j hj => by simp; omega⟩
  have h2 : ((fun c : Nat × Nat => c.1 == k) ∘ fun k => (k, g k)) = fun x => x == k := rfl
  rw [h2, this]; rfl

theorem level_planeOf (g : Nat → Nat) (k : Nat) (h : k < 1920000) : planeLevel (planeOf g) k = g k := by
  unfold planeOf
  have e : Config.panelWidth * Config.panelHeight = 1920000 := by decide
  rw [e, level_notBlank (rising_range_map _ g), planeLevel_look, look_range_map _ g k h]; rfl

theorem rising_planeOf (g : Nat → Nat) : rising (planeOf g) := rising_notBlank (rising_range_map _ g)

/-- A pixel read after a plane takes another's levels over a rectangle. -/
theorem level_planeCopy (dst src : Plane) (r : Rect) (k : Nat) :
    planeLevel (planeCopy dst src r) k = if r.holds k then planeLevel src k else planeLevel dst k := by
  rw [planeLevel_look, planeLevel_look, planeLevel_look]
  unfold planeCopy
  rw [look_mergeCells, look_outside, look_inside]
  · split <;> simp
  · by_cases h : r.holds k = true
    · left; intro c hc hk; subst hk; simp [outside, h] at hc
    · right; intro c hc hk; subst hk; simp [inside, h] at hc

theorem rising_planeCopy {dst src : Plane} (r : Rect) (h1 : rising dst) (h2 : rising src) : rising (planeCopy dst src r) := by
  refine rising_mergeCells (h1.filter _) (h2.filter _) ?_
  intro a ha b hb e
  simp [outside, inside] at ha hb
  rw [e] at ha; rw [hb.2] at ha; cases ha.2

theorem look_map_levels (p : Plane) (g : Nat × Nat → Nat) (k : Nat) :
    lookLevel (p.map fun c => (c.1, g c)) k = (lookLevel p k).map fun c => (c.1, g c) := by
  induction p with
  | nil => rfl
  | cons c p ih => rw [List.map_cons, lookLevel_cons, lookLevel_cons, ih]; split <;> rfl

theorem rising_map_levels {p : Plane} (g : Nat × Nat → Nat) (h : rising p) : rising (p.map fun c => (c.1, g c)) := by
  unfold rising; rw [List.pairwise_map]; exact h

/-- A pixel read after a function has changed the levels of a rectangle. -/
theorem level_planeMap (f : Nat → Nat) {p : Plane} (r : Rect) (hp : rising p) (k : Nat) (hk : k < 1920000) :
    planeLevel (planeMap f p r) k = if r.holds k then f (planeLevel p k) else planeLevel p k := by
  unfold planeMap; split
  · rename_i hf
    have e : (p.map fun c => if r.holds c.1 then (c.1, f c.2) else c)
        = p.map fun c => (c.1, if r.holds c.1 then f c.2 else c.2) := by
      apply List.map_congr_left; intro c _; split <;> rfl
    rw [e, level_notBlank (rising_map_levels _ hp), planeLevel_look, planeLevel_look, look_map_levels]
    cases h : lookLevel p k with
    | none => have : f 15 = 15 := hf
              simp [this]
    | some c => have := (lookLevel_key h).1; subst this; simp
  · rw [level_planeOf _ _ hk]

theorem rising_planeMap (f : Nat → Nat) {p : Plane} (r : Rect) (hp : rising p) : rising (planeMap f p r) := by
  unfold planeMap; split
  · have e : (p.map fun c => if r.holds c.1 then (c.1, f c.2) else c)
        = p.map fun c => (c.1, if r.holds c.1 then f c.2 else c.2) := by
      apply List.map_congr_left; intro c _; split <;> rfl
    rw [e]; exact rising_notBlank (rising_map_levels _ hp)
  · exact rising_planeOf _

/-- A pixel read after the unwritten pixels of an entry have taken its fill level. -/
theorem level_planeFill (fill : Nat) {w : Plane} (hw : rising w) (k : Nat) (hk : k < 1920000) :
    planeLevel (planeFill fill w) k = ((lookLevel w k).map Prod.snd).getD fill := by
  unfold planeFill; split
  · rename_i hf; subst hf; rw [level_notBlank hw, planeLevel_look]; rfl
  · rw [level_planeOf _ _ hk]; unfold lookLevel; split <;> rename_i h <;> rw [h] <;> rfl

theorem rising_planeFill (fill : Nat) {w : Plane} (hw : rising w) : rising (planeFill fill w) := by
  unfold planeFill; split
  · exact rising_notBlank hw
  · exact rising_planeOf _

/-! ## A rectangle's levels -/

theorem pixel_split (k : Nat) : pixelNum (k % 1600) (k / 1600) = k := by
  unfold pixelNum Config.panelWidth; omega

theorem pixelNum_mod {x y : Nat} (hx : x < 1600) : pixelNum x y % 1600 = x ∧ pixelNum x y / 1600 = y := by
  unfold pixelNum Config.panelWidth; omega

/-- The place of a pixel in the row-major order of a rectangle that is `w` pixels wide. -/
def rowMajor (r : Rect) (x y : Nat) : Nat := (y - r.y0) * (r.x1 - r.x0 + 1) + (x - r.x0)

theorem rowMajor_next (r : Rect) {x y : Nat} (hx : r.x0 ≤ x ∧ x ≤ r.x1) (hy : r.y0 ≤ y) :
    rowMajor r (if x = r.x1 then r.x0 else x + 1) (if x = r.x1 then y + 1 else y) = rowMajor r x y + 1 := by
  unfold rowMajor
  by_cases h : x = r.x1
  · simp only [if_pos h]
    have e : y + 1 - r.y0 = (y - r.y0) + 1 := by omega
    rw [e, Nat.add_mul]; omega
  · simp only [if_neg h]; omega

theorem rowMajor_inj (r : Rect) {x y x' y' : Nat} (hx : r.x0 ≤ x ∧ x ≤ r.x1) (hy : r.y0 ≤ y) (hx' : r.x0 ≤ x' ∧ x' ≤ r.x1)
    (hy' : r.y0 ≤ y') (h : rowMajor r x y = rowMajor r x' y') : x = x' ∧ y = y' := by
  unfold rowMajor at h
  have hw : x - r.x0 < r.x1 - r.x0 + 1 := by omega
  have hw' : x' - r.x0 < r.x1 - r.x0 + 1 := by omega
  have h1 : ((y - r.y0) * (r.x1 - r.x0 + 1) + (x - r.x0)) / (r.x1 - r.x0 + 1) = y - r.y0 := by
    rw [Nat.mul_comm, Nat.mul_add_div (by omega), Nat.div_eq_of_lt hw]; rfl
  have h2 : ((y' - r.y0) * (r.x1 - r.x0 + 1) + (x' - r.x0)) / (r.x1 - r.x0 + 1) = y' - r.y0 := by
    rw [Nat.mul_comm, Nat.mul_add_div (by omega), Nat.div_eq_of_lt hw']; rfl
  have e : y - r.y0 = y' - r.y0 := by rw [← h1, ← h2, h]
  rw [e] at h
  omega

/-- One step of `cellsOfRect`. -/
theorem cellsOfRect_cons (r : Rect) (x y l : Nat) (ls : List Nat) :
    cellsOfRect r x y (l :: ls) =
      let rest := cellsOfRect r (if x = r.x1 then r.x0 else x + 1) (if x = r.x1 then y + 1 else y) ls
      if x < 1600 ∧ y < 1200 then (pixelNum x y, l) :: rest else rest := by
  by_cases h : x = r.x1 <;> simp [cellsOfRect, h, Config.panelWidth, Config.panelHeight]

/-- What a rectangle's levels list: pixels of the panel within its columns, from the starting one on. -/
theorem mem_cellsOfRect (r : Rect) (hr : r.x0 ≤ r.x1) (x y : Nat) (ls : List Nat) (hx : r.x0 ≤ x ∧ x ≤ r.x1) (hy : r.y0 ≤ y)
    {c : Nat × Nat} (hc : c ∈ cellsOfRect r x y ls) :
    ∃ x' y', c.1 = pixelNum x' y' ∧ x' < 1600 ∧ y' < 1200 ∧ r.x0 ≤ x' ∧ x' ≤ r.x1 ∧ y ≤ y' ∧ (y' = y → x ≤ x') ∧
      rowMajor r x' y' < rowMajor r x y + ls.length := by
  induction ls generalizing x y with
  | nil => simp [cellsOfRect] at hc
  | cons l ls ih =>
    rw [cellsOfRect_cons] at hc
    simp only at hc
    have hn := rowMajor_next r hx hy
    have hrest : c ∈ cellsOfRect r (if x = r.x1 then r.x0 else x + 1) (if x = r.x1 then y + 1 else y) ls →
        ∃ x' y', c.1 = pixelNum x' y' ∧ x' < 1600 ∧ y' < 1200 ∧ r.x0 ≤ x' ∧ x' ≤ r.x1 ∧ y ≤ y' ∧ (y' = y → x ≤ x') ∧
          rowMajor r x' y' < rowMajor r x y + (l :: ls).length := by
      intro h
      obtain ⟨x', y', h1, h2, h3, h4, h5, h6, h7, h8⟩ := ih _ _ (by split <;> omega) (by split <;> omega) h
      rw [hn] at h8
      refine ⟨x', y', h1, h2, h3, h4, h5, ?_, ?_, by simp only [List.length_cons]; omega⟩
      · split at h6 <;> omega
      · intro e; split at h6 <;> split at h7 <;> omega
    split at hc
    · rename_i hp
      rcases List.mem_cons.1 hc with rfl | hc
      · exact ⟨x, y, rfl, hp.1, hp.2, hx.1, hx.2, Nat.le_refl _, fun _ => Nat.le_refl _, by simp⟩
      · exact hrest hc
    · exact hrest hc

theorem rising_cellsOfRect (r : Rect) (hr : r.x0 ≤ r.x1) (x y : Nat) (ls : List Nat) (hx : r.x0 ≤ x ∧ x ≤ r.x1)
    (hy : r.y0 ≤ y) : rising (cellsOfRect r x y ls) := by
  induction ls generalizing x y with
  | nil => simp [cellsOfRect, rising]
  | cons l ls ih =>
    rw [cellsOfRect_cons]
    simp only
    have hrest := ih (if x = r.x1 then r.x0 else x + 1) (if x = r.x1 then y + 1 else y) (by split <;> omega)
      (by split <;> omega)
    split
    · rename_i hp
      refine List.pairwise_cons.2 ⟨?_, hrest⟩
      intro c hc
      obtain ⟨x', y', h1, h2, h3, h4, h5, h6, h7, _⟩ := mem_cellsOfRect r hr _ _ ls (by split <;> omega) (by split <;> omega) hc
      rw [h1]; unfold pixelNum Config.panelWidth
      split at h6 <;> split at h7 <;> omega
    · exact hrest

/-- The level that a rectangle's levels list for a pixel of the panel. -/
theorem look_cellsOfRect (r : Rect) (hr : r.x0 ≤ r.x1) (x y : Nat) (ls : List Nat) (hx : r.x0 ≤ x ∧ x ≤ r.x1) (hy : r.y0 ≤ y)
    {x' y' : Nat} (hx' : x' < 1600) (hy' : y' < 1200) (hin : r.x0 ≤ x' ∧ x' ≤ r.x1) (hy0 : r.y0 ≤ y')
    (hge : rowMajor r x y ≤ rowMajor r x' y') (hlt : rowMajor r x' y' < rowMajor r x y + ls.length) :
    lookLevel (cellsOfRect r x y ls) (pixelNum x' y')
      = some (pixelNum x' y', ls.getD (rowMajor r x' y' - rowMajor r x y) 0) := by
  induction ls generalizing x y with
  | nil => simp at hlt; omega
  | cons l ls ih =>
    rw [cellsOfRect_cons]
    simp only
    have hn := rowMajor_next r hx hy
    by_cases e : rowMajor r x y = rowMajor r x' y'
    · obtain ⟨rfl, rfl⟩ := rowMajor_inj r hx hy hin hy0 e
      rw [if_pos ⟨hx', hy'⟩, lookLevel_cons, if_pos rfl]; simp
    · have hrest := ih (if x = r.x1 then r.x0 else x + 1) (if x = r.x1 then y + 1 else y) (by split <;> omega)
        (by split <;> omega) (by rw [hn]; omega) (by rw [hn]; simp only [List.length_cons] at hlt; omega)
      rw [hn] at hrest
      have ed : rowMajor r x' y' - rowMajor r x y = (rowMajor r x' y' - (rowMajor r x y + 1)) + 1 := by omega
      rw [ed, List.getD_cons_succ]
      split
      · rename_i hp
        rw [lookLevel_cons, if_neg, hrest]
        intro h
        have h1 := pixelNum_mod (y := y) hp.1
        have h2 := pixelNum_mod (y := y') hx'
        simp only at h
        rw [h] at h1
        exact e (by rw [h1.1.symm.trans h2.1, h1.2.symm.trans h2.2])
      · exact hrest

/-- Levels for every pixel of a rectangle. -/
def Rect.full (r : Rect) (ls : List Nat) : Prop :=
  r.x0 ≤ r.x1 ∧ r.y0 ≤ r.y1 ∧ ls.length = (r.x1 - r.x0 + 1) * (r.y1 - r.y0 + 1)

theorem Rect.holds_iff (r : Rect) (k : Nat) :
    r.holds k = true ↔ r.x0 ≤ k % 1600 ∧ k % 1600 ≤ r.x1 ∧ r.y0 ≤ k / 1600 ∧ k / 1600 ≤ r.y1 := by
  unfold Rect.holds Config.panelWidth; simp [and_assoc]

theorem rowMajor_lt (r : Rect) {ls : List Nat} (hr : r.full ls) {x y : Nat} (hx : r.x0 ≤ x ∧ x ≤ r.x1) (hy : r.y0 ≤ y) :
    rowMajor r x y < ls.length ↔ y ≤ r.y1 := by
  rw [hr.2.2]; unfold rowMajor
  have hw : x - r.x0 < r.x1 - r.x0 + 1 := by omega
  constructor
  · intro h1
    rw [Nat.mul_comm (r.x1 - r.x0 + 1)] at h1
    have : y - r.y0 < r.y1 - r.y0 + 1 := by
      rw [← Nat.mul_lt_mul_right (a := r.x1 - r.x0 + 1) (by omega)]; omega
    have := hr.2.1
    omega
  · intro h1
    have h2 : y - r.y0 + 1 ≤ r.y1 - r.y0 + 1 := by omega
    have h3 := Nat.mul_le_mul_right (r.x1 - r.x0 + 1) h2
    rw [Nat.mul_comm (r.x1 - r.x0 + 1)]
    rw [Nat.add_mul] at h3; omega

/-- The level that full levels give a pixel, in the rectangle and out of it. -/
theorem look_full (r : Rect) {ls : List Nat} (h : r.full ls) {k : Nat} (hk : k < 1920000) :
    lookLevel (cellsOfRect r r.x0 r.y0 ls) k =
      if r.holds k then some (k, ls.getD (rowMajor r (k % 1600) (k / 1600)) 0) else none := by
  have h0 : rowMajor r r.x0 r.y0 = 0 := by simp [rowMajor]
  by_cases hh : r.holds k = true
  · rw [if_pos hh]
    obtain ⟨h1, h2, h3, h4⟩ := (r.holds_iff k).1 hh
    have := look_cellsOfRect r h.1 r.x0 r.y0 ls ⟨Nat.le_refl _, h.1⟩ (Nat.le_refl _) (x' := k % 1600) (y' := k / 1600)
      (Nat.mod_lt _ (by decide)) (by omega) ⟨h1, h2⟩ h3 (by rw [h0]; omega)
      (by rw [h0, Nat.zero_add]; exact (rowMajor_lt r h ⟨h1, h2⟩ h3).2 h4)
    rw [pixel_split k, h0] at this; simpa using this
  · rw [if_neg hh]
    apply lookLevel_none
    intro c hc e
    obtain ⟨x', y', h1, h2, h3, h4, h5, h6, _, h8⟩ :=
      mem_cellsOfRect r h.1 r.x0 r.y0 ls ⟨Nat.le_refl _, h.1⟩ (Nat.le_refl _) hc
    rw [h0, Nat.zero_add] at h8
    have hy := (rowMajor_lt r h ⟨h4, h5⟩ h6).1 h8
    have hm := pixelNum_mod (y := y') h2
    rw [← h1, e] at hm
    exact hh ((r.holds_iff k).2 (by rw [hm.1, hm.2]; exact ⟨h4, h5, h6, hy⟩))

theorem cells_held (r : Rect) {ls : List Nat} (h : r.full ls) {c : Nat × Nat} (hc : c ∈ cellsOfRect r r.x0 r.y0 ls) :
    r.holds c.1 = true := by
  obtain ⟨x', y', h1, h2, h3, h4, h5, h6, _, h8⟩ :=
    mem_cellsOfRect r h.1 r.x0 r.y0 ls ⟨Nat.le_refl _, h.1⟩ (Nat.le_refl _) hc
  have h0 : rowMajor r r.x0 r.y0 = 0 := by simp [rowMajor]
  rw [h0, Nat.zero_add] at h8
  have hy := (rowMajor_lt r h ⟨h4, h5⟩ h6).1 h8
  have hm := pixelNum_mod (y := y') h2
  rw [← h1] at hm
  exact (r.holds_iff _).2 (by rw [hm.1, hm.2]; exact ⟨h4, h5, h6, hy⟩)

/-- A pixel read after a rectangle's levels are written into a plane. -/
theorem level_planeWrite (p : Plane) (r : Rect) {ls : List Nat} (h : r.full ls) {k : Nat} (hk : k < 1920000) :
    planeLevel (planeWrite p r ls) k =
      if r.holds k then ls.getD (rowMajor r (k % 1600) (k / 1600)) 0 else planeLevel p k := by
  have hb := level_notBlank (rising_cellsOfRect r h.1 r.x0 r.y0 ls ⟨Nat.le_refl _, h.1⟩ (Nat.le_refl _)) k
  rw [planeLevel_look, planeLevel_look, look_full r h hk] at hb
  rw [planeLevel_look, planeLevel_look]
  unfold planeWrite
  rw [look_mergeCells, look_outside]
  · by_cases hh : r.holds k = true
    · simp only [hh, if_true, Option.none_or] at hb ⊢; rw [hb]; rfl
    · have : lookLevel (notBlank (cellsOfRect r r.x0 r.y0 ls)) k = none := by
        apply lookLevel_none
        intro c hc e; subst e
        exact hh (cells_held r h (List.mem_filter.1 hc).1)
      simp [hh, this]
  · by_cases hh : r.holds k = true
    · left; intro c hc e; subst e; simp [outside, hh] at hc
    · right; intro c hc e; subst e; exact hh (cells_held r h (List.mem_filter.1 hc).1)

/-- What is listed for a pixel after a rectangle's levels are written into an entry. -/
theorem look_writeCells (p : Plane) (r : Rect) {ls : List Nat} (h : r.full ls) {k : Nat} (hk : k < 1920000) :
    lookLevel (writeCells p r ls) k =
      if r.holds k then some (k, ls.getD (rowMajor r (k % 1600) (k / 1600)) 0) else lookLevel p k := by
  unfold writeCells
  rw [look_mergeCells, look_outside, look_full r h hk]
  · split <;> simp
  · by_cases hh : r.holds k = true
    · left; intro c hc e; subst e; simp [outside, hh] at hc
    · right; intro c hc e; subst e; exact hh (cells_held r h hc)

theorem rising_writeCells {p : Plane} (r : Rect) {ls : List Nat} (h : r.full ls) (hp : rising p) :
    rising (writeCells p r ls) := by
  refine rising_mergeCells (hp.filter _) (rising_cellsOfRect r h.1 _ _ ls ⟨Nat.le_refl _, h.1⟩ (Nat.le_refl _)) ?_
  intro a ha b hb e
  simp [outside] at ha
  rw [e, cells_held r h hb] at ha; cases ha.2

theorem rising_planeWrite {p : Plane} (r : Rect) {ls : List Nat} (h : r.full ls) (hp : rising p) :
    rising (planeWrite p r ls) := by
  refine rising_mergeCells (hp.filter _)
    (rising_notBlank (rising_cellsOfRect r h.1 _ _ ls ⟨Nat.le_refl _, h.1⟩ (Nat.le_refl _))) ?_
  intro a ha b hb e
  simp [outside] at ha
  rw [e, cells_held r h (List.mem_filter.1 hb).1] at ha; cases ha.2

end Sys2Proof.Machine
end

