-- ==== Sys2Proof/Laws/Requests.lean ====
section
/-! SUPPORT. Laws/Requests.lean: how a request command runs, in the terms of the statements (Claims), and the codes of
its fields. -/

namespace Sys2Proof.Machine

open Sys2Proof Sys2Proof.Claims

/-- A taken request is of its kind, its owner is free, and it is the oldest of its stream. -/
theorem taken_spec {s : State} {k : ReqKind} {r : Request} (h : s.taken k = some r) :
    r.kind = k ∧ s.ownerFree k.stream = true ∧ s.oldest k.stream = some r := by
  unfold State.taken at h
  split at h
  · cases h
  · split at h
    · rename_i h1 h2; cases h; exact ⟨h2.1, h2.2, h1⟩
    · cases h

/-- Taking a request serves it once it has left the inbound list. -/
theorem takeRequest_taken {s : State} {k : ReqKind} {r : Request} (f) (h : s.taken k = some r) :
    takeRequest k f s = f r (took k.stream s) := by
  simp [takeRequest, h, took, leaveInbound]

/-- A response to a taken request, in the terms of the statements. -/
theorem respond_eq_replied {s : State} {k : ReqKind} {r : Request} (h : s.taken k = some r) (c b) (u : State) :
    respond r c b u = replied k r c b u := by
  obtain ⟨rfl, _⟩ := taken_spec h
  rfl

/-- A request command runs by serving the taken request. -/
theorem runs_of_taken {s : State} {k : ReqKind} {r : Request} {c : Instr} {f : Request → State → State} {T : State}
  (h : s.taken k = some r) (hx : exec c s = event (takeRequest k f s)) (hT : f r (took k.stream s) = T) : runs c s T := by
  simp [runs, hx, event, takeRequest_taken _ h, hT]

/-- A mode is read back from its code. -/
theorem modeOf_code (m : Mode) : modeOf m.code = some m := by cases m <;> rfl

/-- No mode has a code above 3. -/
theorem modeOf_none {n : Nat} (h : 3 < n) : modeOf n = none := by
  unfold modeOf; split <;> first | omega | rfl

/-- Every code up to 3 is a mode. -/
theorem modeOf_some {n : Nat} (h : n ≤ 3) : ∃ m : Mode, modeOf n = some m ∧ n = m.code := by
  match n, h with
  | 0, _ => exact ⟨.clear, rfl, rfl⟩
  | 1, _ => exact ⟨.tone, rfl, rfl⟩
  | 2, _ => exact ⟨.text, rfl, rfl⟩
  | 3, _ => exact ⟨.skim, rfl, rfl⟩

/-- The legal rectangles of R33, written out. -/
theorem Rect.legal_iff (r : Rect) : r.legal = true ↔ (r.x0 ≤ r.x1 ∧ r.y0 ≤ r.y1 ∧ r.x0 ≤ 1599 ∧ r.y0 ≤ 1199) := by
  unfold Rect.legal; have : Config.panelWidth = 1600 := rfl; have : Config.panelHeight = 1200 := rfl; grind

/-- A page mode is read back from its code. -/
theorem pageModeOf_code {m : Mode} (hm : m ≠ .skim) : pageModeOf m.code = some m := by cases m <;> first | rfl | exact absurd rfl hm

/-- No page mode has a code above 2. -/
theorem pageModeOf_none {n : Nat} (h : 2 < n) : pageModeOf n = none := by
  unfold pageModeOf
  by_cases hh : n = 3
  · subst hh; rfl
  · rw [modeOf_none (by omega)]

/-- Every code up to 2 is a page mode. -/
theorem pageModeOf_some {n : Nat} (h : n ≤ 2) : ∃ d : Mode, pageModeOf n = some d := by
  match n, h with
  | 0, _ => exact ⟨_, rfl⟩
  | 1, _ => exact ⟨_, rfl⟩
  | 2, _ => exact ⟨_, rfl⟩

/-- A direction is read back from its code. -/
theorem dirOf_code (d : Dir) : dirOf d.code = some d := by cases d <;> rfl

/-- No direction has a code above 1. -/
theorem dirOf_none {n : Nat} (h : 1 < n) : dirOf n = none := by
  unfold dirOf; split <;> first | omega | rfl

/-- The codes 0 and 1 are directions. -/
theorem dirOf_some {n : Nat} (h : n ≤ 1) : ∃ d : Dir, dirOf n = some d ∧ n = d.code := by
  match n, h with
  | 0, _ => exact ⟨.forward, rfl, rfl⟩
  | 1, _ => exact ⟨.back, rfl, rfl⟩

end Sys2Proof.Machine
end

