-- ==== Sys2Proof/Laws/Shape.lean ====
section
/-! SUPPORT. Laws/Shape.lean: the shared operations keep the sizes of the fixed collections (R34, R56, R112, R170, R173),
the inbound list (R167) and the canonical form of the content. -/

namespace Sys2Proof.Machine

open Sys2Proof

/-! ## Lists -/

/-- Changing tiles keeps their number. -/
@[simp] theorem mapTiles_length (f : Nat → Tile → Tile) (k : Nat) (ts : List Tile) :
    (mapTiles f k ts).length = ts.length := by
  induction ts generalizing k with
  | nil => rfl
  | cons t ts ih => simp [mapTiles, ih]

/-- Giving a slab keeps their number. -/
@[simp] theorem takeSlab_length (h : Holder) (p : List Holder) : (takeSlab h p).length = p.length := by
  induction p with
  | nil => rfl
  | cons x xs ih => simp only [takeSlab]; split <;> simp [ih]

/-- Giving slabs keeps their number. -/
@[simp] theorem takeSlabs_length (h : Holder) (n : Nat) (p : List Holder) : (takeSlabs h n p).length = p.length := by
  simp only [takeSlabs]
  induction n generalizing p with
  | zero => rfl
  | succ n ih => simp [Nat.repeat, ih]

/-- Passing a slab keeps their number. -/
@[simp] theorem passSlab_length (a b : Holder) (p : List Holder) : (passSlab a b p).length = p.length := by
  induction p with
  | nil => rfl
  | cons x xs ih => simp only [passSlab]; split <;> simp [ih]

/-- Freeing slabs keeps their number. -/
@[simp] theorem freeSlabs_length (q : Holder → Bool) (p : List Holder) : (freeSlabs q p).length = p.length := by
  simp [freeSlabs]

/-- Exchanging slabs keeps their number. -/
@[simp] theorem swapSlabs_length (a b : Holder) (p : List Holder) : (swapSlabs a b p).length = p.length := by
  simp [swapSlabs]

/-! ## Operations -/

/-- The sizes and the inbound list after: a packet is queued. -/
@[simp] theorem addOut_size (i : OutItem) (s : State) :
    (s.addOut i).link.merged.length = s.link.merged.length ∧
    (s.addOut i).link.inbound = s.link.inbound := by
  simp [State.addOut]

/-- The sizes and the inbound list after: a response is queued. -/
@[simp] theorem respond_size (r : Request) (c : Code) (b : List Byte) (s : State) :
    (respond r c b s).link.merged.length = s.link.merged.length ∧
    (respond r c b s).link.inbound = s.link.inbound := by
  simp only [respond]
  simp

/-- The sizes and the inbound list after: a merged trigger. -/
@[simp] theorem mergeTrigger_size (k : NoticeKind) (s : State) :
    (mergeTrigger k s).link.merged.length = s.link.merged.length ∧
    (mergeTrigger k s).link.inbound = s.link.inbound := by
  simp only [mergeTrigger]
  simp

/-- The sizes and the inbound list after: a trigger. -/
@[simp] theorem trigger_size (k : NoticeKind) (s : State) :
    (trigger k s).link.merged.length = s.link.merged.length ∧
    (trigger k s).link.inbound = s.link.inbound := by
  simp only [trigger]
  repeat' split
  all_goals simp

/-- The sizes and the inbound list after: a moderation record is set. -/
@[simp] theorem setModeration_size (m : Moderated) (v : Moderation) (s : State) :
    (s.setModeration m v).link.merged.length = s.link.merged.length ∧
    (s.setModeration m v).link.inbound = s.link.inbound := by
  cases m <;> simp [State.setModeration]

/-- The sizes and the inbound list after: a moderated notice. -/
@[simp] theorem createModerated_size (m : Moderated) (s : State) :
    (createModerated m s).link.merged.length = s.link.merged.length ∧
    (createModerated m s).link.inbound = s.link.inbound := by
  simp only [createModerated]
  simp

/-- The sizes and the inbound list after: a moderated trigger. -/
@[simp] theorem moderatedTrigger_size (m : Moderated) (s : State) :
    (moderatedTrigger m s).link.merged.length = s.link.merged.length ∧
    (moderatedTrigger m s).link.inbound = s.link.inbound := by
  simp only [moderatedTrigger]
  repeat' split
  all_goals simp

/-- The sizes and the inbound list after: a forced trigger. -/
@[simp] theorem forcedTrigger_size (m : Moderated) (s : State) :
    (forcedTrigger m s).link.merged.length = s.link.merged.length ∧
    (forcedTrigger m s).link.inbound = s.link.inbound := by
  simp only [forcedTrigger]
  repeat' split
  all_goals simp

/-- The sizes and the inbound list after: a TEMP event. -/
@[simp] theorem recordTemp_size (k : Nat) (s : State) :
    (recordTemp k s).link.merged.length = s.link.merged.length ∧
    (recordTemp k s).link.inbound = s.link.inbound := by
  simp only [recordTemp]
  simp

/-- The sizes and the inbound list after: a LIGHT event. -/
@[simp] theorem recordLight_size (k : Nat) (s : State) :
    (recordLight k s).link.merged.length = s.link.merged.length ∧
    (recordLight k s).link.inbound = s.link.inbound := by
  simp only [recordLight]
  simp

/-- The sizes and the inbound list after: a BUDGET event. -/
@[simp] theorem recordBudget_size (k : Nat) (s : State) :
    (recordBudget k s).link.merged.length = s.link.merged.length ∧
    (recordBudget k s).link.inbound = s.link.inbound := by
  simp only [recordBudget]
  simp

/-- The sizes and the inbound list after: a POWER event. -/
@[simp] theorem recordPower_size (k : Nat) (s : State) :
    (recordPower k s).link.merged.length = s.link.merged.length ∧
    (recordPower k s).link.inbound = s.link.inbound := by
  simp only [recordPower]
  simp

/-- The sizes and the inbound list after: a LINK event. -/
@[simp] theorem recordLink_size (k : Nat) (s : State) :
    (recordLink k s).link.merged.length = s.link.merged.length ∧
    (recordLink k s).link.inbound = s.link.inbound := by
  simp only [recordLink]
  repeat' split
  all_goals simp

/-- The sizes and the inbound list after: a completion record. -/
@[simp] theorem appendCompletion_size (c : Completion) (s : State) :
    (appendCompletion c s).eng.lanes.length = s.eng.lanes.length ∧
    (appendCompletion c s).link.merged.length = s.link.merged.length ∧
    (appendCompletion c s).link.inbound = s.link.inbound := by
  simp only [appendCompletion]
  repeat' split
  all_goals simp

/-- The sizes and the inbound list after: a turn record. -/
@[simp] theorem appendTurn_size (r : TurnRecord) (s : State) :
    (appendTurn r s).link.merged.length = s.link.merged.length ∧
    (appendTurn r s).link.inbound = s.link.inbound := by
  simp only [appendTurn]
  repeat' split
  all_goals simp

/-- The sizes and the inbound list after: a key record. -/
@[simp] theorem appendKey_size (k : Key) (e : KeyEvent) (s : State) :
    (appendKey k e s).link.merged.length = s.link.merged.length ∧
    (appendKey k e s).link.inbound = s.link.inbound := by
  simp only [appendKey]
  repeat' split
  all_goals simp

/-- The sizes and the inbound list after: a band move. -/
@[simp] theorem applyBand_size (t : Int) (s : State) :
    (applyBand t s).link.merged.length = s.link.merged.length ∧
    (applyBand t s).link.inbound = s.link.inbound := by
  simp only [applyBand]
  repeat' split
  all_goals simp

/-- The sizes and the inbound list after: a range move. -/
@[simp] theorem applyRange_size (t : Int) (s : State) :
    (applyRange t s).link.merged.length = s.link.merged.length ∧
    (applyRange t s).link.inbound = s.link.inbound := by
  simp only [applyRange]
  repeat' split
  all_goals simp

/-- The sizes and the inbound list after: a TEMP reading. -/
@[simp] theorem tempReading_size (raw : Nat) (s : State) :
    (tempReading raw s).link.merged.length = s.link.merged.length ∧
    (tempReading raw s).link.inbound = s.link.inbound := by
  simp only [tempReading]
  repeat' split
  all_goals simp

/-- The sizes and the inbound list after: an update is admitted. -/
@[simp] theorem appendUpdate_size (id : Nat) (r : Rect) (m : Mode) (np : Bool) (o : Origin) (pl : Nat) (s : State) :
    (appendUpdate id r m np o pl s).eng.lanes.length = s.eng.lanes.length := by
  simp only [appendUpdate]

/-- The sizes and the inbound list after: an entry leaves the queue. -/
@[simp] theorem dropEntry_size (n : Nat) (s : State) :
    (dropEntry n s).eng.lanes.length = s.eng.lanes.length := by
  simp only [dropEntry]

/-- The sizes and the inbound list after: an entry ends. -/
@[simp] theorem endEntry_size (e : QEntry) (st : Status) (m : Mode) (p : Bool) (s : State) :
    (endEntry e st m p s).eng.lanes.length = s.eng.lanes.length ∧
    (endEntry e st m p s).link.merged.length = s.link.merged.length ∧
    (endEntry e st m p s).link.inbound = s.link.inbound := by
  simp only [endEntry]
  simp

/-- The sizes and the inbound list after: the engine's claim is sent. -/
@[simp] theorem sendClaim_size (e : QEntry) (p : Pick) (s : State) :
    (sendClaim e p s).eng.lanes.length = s.eng.lanes.length := by
  simp only [sendClaim]
  simp

/-- The sizes and the inbound list after: the arbiter's looks. -/
@[simp] theorem lookLoop_size (n : Nat) (s : State) :
    (lookLoop n s).eng.lanes.length = s.eng.lanes.length ∧ (lookLoop n s).link.merged.length = s.link.merged.length ∧
    (lookLoop n s).link.inbound = s.link.inbound := by
  induction n generalizing s with
  | zero => simp [lookLoop]
  | succ n ih =>
    simp only [lookLoop]
    repeat' split
    all_goals simp [ih]

/-- The sizes and the inbound list after: the arbiter's look. -/
@[simp] theorem look_size (s : State) :
    (look s).eng.lanes.length = s.eng.lanes.length ∧ (look s).link.merged.length = s.link.merged.length ∧
    (look s).link.inbound = s.link.inbound := by
  simp only [look]
  simp

/-- The sizes and the inbound list after: the panel supply's start. -/
@[simp] theorem startPanel_size (s : State) :
    (startPanel s).eng.lanes.length = s.eng.lanes.length := by
  simp only [startPanel]
  repeat' split
  all_goals simp

/-- The sizes and the inbound list after: a lane's start. -/
@[simp] theorem startLane_size (s : State) :
    (startLane s).img.tiles.length = s.img.tiles.length ∧ (startLane s).eng.lanes.length = s.eng.lanes.length := by
  simp only [startLane]
  repeat' split
  all_goals simp [ownTiles]

/-- The sizes and the inbound list after: the light's state is judged. -/
@[simp] theorem judgeLight_size (s : State) :
    (judgeLight s).link.merged.length = s.link.merged.length ∧
    (judgeLight s).link.inbound = s.link.inbound := by
  simp only [judgeLight]
  repeat' split
  all_goals simp

/-- The sizes and the inbound list after: the cut mark is judged. -/
@[simp] theorem judgeCutMark_size (s : State) :
    (judgeCutMark s).link.merged.length = s.link.merged.length ∧
    (judgeCutMark s).link.inbound = s.link.inbound := by
  simp only [judgeCutMark]
  repeat' split
  all_goals simp

/-- The sizes and the inbound list after: the light's grant. -/
@[simp] theorem setGrant_size (g : Nat) (s : State) :
    (setGrant g s).link.merged.length = s.link.merged.length ∧
    (setGrant g s).link.inbound = s.link.inbound := by
  simp only [setGrant]
  simp

/-- The sizes and the inbound list after: the standing want. -/
@[simp] theorem standingWant_size (s : State) :
    (standingWant s).link.merged.length = s.link.merged.length ∧
    (standingWant s).link.inbound = s.link.inbound := by
  simp only [standingWant]
  repeat' split
  all_goals simp

/-- The sizes and the inbound list after: a cut of the light. -/
@[simp] theorem cutLight_size (g : Nat) (s : State) :
    (cutLight g s).link.merged.length = s.link.merged.length ∧
    (cutLight g s).link.inbound = s.link.inbound := by
  simp only [cutLight]
  repeat' split
  all_goals simp

/-- The sizes and the inbound list after: new targets. -/
@[simp] theorem targetsChanged_size (s : State) :
    (targetsChanged s).link.merged.length = s.link.merged.length ∧
    (targetsChanged s).link.inbound = s.link.inbound := by
  simp only [targetsChanged]
  repeat' split
  all_goals simp

/-- The sizes and the inbound list after: the ramp's next step. -/
@[simp] theorem rampNext_size (s : State) :
    (rampNext s).link.merged.length = s.link.merged.length ∧
    (rampNext s).link.inbound = s.link.inbound := by
  simp only [rampNext]
  repeat' split
  all_goals simp

/-- The sizes and the inbound list after: the drain level returns. -/
@[simp] theorem restoreLight_size (s : State) :
    (restoreLight s).link.merged.length = s.link.merged.length ∧
    (restoreLight s).link.inbound = s.link.inbound := by
  simp only [restoreLight]
  repeat' split
  all_goals simp

/-- The sizes and the inbound list after: the light at a drain's start. -/
@[simp] theorem lightDrainStart_size (s : State) :
    (lightDrainStart s).link.merged.length = s.link.merged.length ∧
    (lightDrainStart s).link.inbound = s.link.inbound := by
  simp only [lightDrainStart]
  repeat' split
  all_goals simp

/-- The sizes and the inbound list after: a claim is granted. -/
@[simp] theorem grantClaim_size (c : Claim) (s : State) :
    (grantClaim c s).img.tiles.length = s.img.tiles.length ∧
    (grantClaim c s).eng.lanes.length = s.eng.lanes.length ∧
    (grantClaim c s).link.merged.length = s.link.merged.length ∧
    (grantClaim c s).link.inbound = s.link.inbound := by
  simp only [grantClaim]
  repeat' split
  all_goals simp

/-- The sizes and the inbound list after: the decision pass's claims. -/
@[simp] theorem passLoop_size (n : Nat) (s : State) :
    (passLoop n s).img.tiles.length = s.img.tiles.length ∧ (passLoop n s).eng.lanes.length = s.eng.lanes.length ∧
    (passLoop n s).link.merged.length = s.link.merged.length ∧
    (passLoop n s).link.inbound = s.link.inbound := by
  induction n generalizing s with
  | zero => simp [passLoop]
  | succ n ih =>
    simp only [passLoop]
    repeat' split
    all_goals simp [ih]

/-- The sizes and the inbound list after: a decision pass. -/
@[simp] theorem decisionPass_size (s : State) :
    (decisionPass s).img.tiles.length = s.img.tiles.length ∧
    (decisionPass s).eng.lanes.length = s.eng.lanes.length ∧
    (decisionPass s).link.merged.length = s.link.merged.length ∧
    (decisionPass s).link.inbound = s.link.inbound := by
  simp only [decisionPass]
  simp

/-- The sizes and the inbound list after: a look with its decision pass. -/
@[simp] theorem lookPass_size (s : State) :
    (lookPass s).img.tiles.length = s.img.tiles.length ∧ (lookPass s).eng.lanes.length = s.eng.lanes.length ∧
    (lookPass s).link.merged.length = s.link.merged.length ∧
    (lookPass s).link.inbound = s.link.inbound := by
  simp only [lookPass]
  repeat' split
  all_goals simp

/-- The sizes and the inbound list after: the light's claim is reported. -/
@[simp] theorem reportClaim_size (s : State) :
    (reportClaim s).img.tiles.length = s.img.tiles.length ∧ (reportClaim s).eng.lanes.length = s.eng.lanes.length ∧
    (reportClaim s).link.merged.length = s.link.merged.length ∧
    (reportClaim s).link.inbound = s.link.inbound := by
  simp only [reportClaim]
  repeat' split
  all_goals simp

/-- The sizes and the inbound list after: a ramp step. -/
@[simp] theorem rampStepNow_size (s : State) :
    (rampStepNow s).img.tiles.length = s.img.tiles.length ∧ (rampStepNow s).eng.lanes.length = s.eng.lanes.length ∧
    (rampStepNow s).link.merged.length = s.link.merged.length ∧
    (rampStepNow s).link.inbound = s.link.inbound := by
  simp only [rampStepNow]
  simp

/-- The sizes and the inbound list after: a packet lands. -/
@[simp] theorem landPacket_size (p : HeldPacket) (s : State) :
    (landPacket p s).img.tiles.length = s.img.tiles.length := by
  simp only [landPacket]
  all_goals simp [markPending]

/-- The sizes and the inbound list after: the walk of a landing pass. -/
@[simp] theorem landWalk_size (kept ps : List HeldPacket) (s : State) :
    (landWalk kept ps s).img.tiles.length = s.img.tiles.length := by
  induction ps generalizing kept s with
  | nil => simp [landWalk]
  | cons p ps ih =>
    simp only [landWalk]
    split <;> simp [ih]

/-- The sizes and the inbound list after: a TARGET packet. -/
@[simp] theorem placePacket_size (r : Request) (p : HeldPacket) (s : State) :
    (placePacket r p s).img.tiles.length = s.img.tiles.length ∧
    (placePacket r p s).link.merged.length = s.link.merged.length ∧
    (placePacket r p s).link.inbound = s.link.inbound := by
  simp only [placePacket]
  repeat' split
  all_goals simp

/-- The sizes and the inbound list after: a landing pass. -/
@[simp] theorem landingPass_size (s : State) :
    (landingPass s).img.tiles.length = s.img.tiles.length ∧
    (landingPass s).link.merged.length = s.link.merged.length ∧
    (landingPass s).link.inbound = s.link.inbound := by
  simp only [landingPass]
  repeat' split
  all_goals simp

/-- The sizes and the inbound list after: a region is shown. -/
@[simp] theorem showRegion_size (r : Rect) (s : State) :
    (showRegion r s).img.tiles.length = s.img.tiles.length := by
  simp only [showRegion]

/-- The sizes and the inbound list after: a lane is released. -/
@[simp] theorem releaseLane_size (i : Nat) (l : Lane) (st : Status) (s : State) :
    (releaseLane i l st s).img.tiles.length = s.img.tiles.length ∧
    (releaseLane i l st s).eng.lanes.length = s.eng.lanes.length ∧
    (releaseLane i l st s).link.merged.length = s.link.merged.length ∧
    (releaseLane i l st s).link.inbound = s.link.inbound := by
  simp only [releaseLane]
  repeat' split
  all_goals simp

/-- The sizes and the inbound list after: a lane ends. -/
@[simp] theorem endLane_size (i : Nat) (l : Lane) (s : State) :
    (endLane i l s).img.tiles.length = s.img.tiles.length ∧ (endLane i l s).eng.lanes.length = s.eng.lanes.length ∧
    (endLane i l s).link.merged.length = s.link.merged.length ∧
    (endLane i l s).link.inbound = s.link.inbound := by
  simp only [endLane]
  all_goals simp [tilesEnded]

/-- The sizes and the inbound list after: a lane stops. -/
@[simp] theorem stopLane_size (i : Nat) (l : Lane) (s : State) :
    (stopLane i l s).img.tiles.length = s.img.tiles.length ∧
    (stopLane i l s).eng.lanes.length = s.eng.lanes.length ∧
    (stopLane i l s).link.merged.length = s.link.merged.length ∧
    (stopLane i l s).link.inbound = s.link.inbound := by
  simp only [stopLane]
  repeat' split
  all_goals simp [tilesStopped]

/-- The sizes and the inbound list after: the waiting claim is raised. -/
@[simp] theorem raiseWaiting_size (s : State) :
    (raiseWaiting s).eng.lanes.length = s.eng.lanes.length := by
  simp only [raiseWaiting]; repeat' split
  all_goals simp

/-- The sizes and the inbound list after: the panel supply stops. -/
@[simp] theorem stopSupply_size (s : State) :
    (stopSupply s).eng.lanes.length = s.eng.lanes.length := by
  simp only [stopSupply]
  simp

/-- The sizes and the inbound list after: a frame opens. -/
@[simp] theorem openFrame_size (s : State) :
    (openFrame s).eng.lanes.length = s.eng.lanes.length := by
  simp only [openFrame]
  simp

/-- The sizes and the inbound list after: what follows a lane's end. -/
@[simp] theorem afterLane_size (l : Nat × Lane) (s : State) :
    (afterLane s l).img.tiles.length = s.img.tiles.length ∧ (afterLane s l).eng.lanes.length = s.eng.lanes.length ∧
    (afterLane s l).link.merged.length = s.link.merged.length ∧
    (afterLane s l).link.inbound = s.link.inbound := by
  simp only [afterLane]
  repeat' split
  all_goals simp

/-- The sizes and the inbound list after: steps 1 and 2 of a boundary. -/
@[simp] theorem endAndStop_size (s : State) :
    (endAndStop s).img.tiles.length = s.img.tiles.length ∧ (endAndStop s).eng.lanes.length = s.eng.lanes.length ∧
    (endAndStop s).link.merged.length = s.link.merged.length ∧
    (endAndStop s).link.inbound = s.link.inbound := by
  refine ⟨?_, ?_, ?_, ?_⟩
  · simp only [endAndStop]
    exact (foldl_keeps (fun s : State => s.img.tiles.length) (by simp) _ _).trans (foldl_keeps (fun s : State => s.img.tiles.length) (by simp) _ _)
  · simp only [endAndStop]
    exact (foldl_keeps (fun s : State => s.eng.lanes.length) (by simp) _ _).trans (foldl_keeps (fun s : State => s.eng.lanes.length) (by simp) _ _)
  · simp only [endAndStop]
    exact (foldl_keeps (fun s : State => s.link.merged.length) (by simp) _ _).trans (foldl_keeps (fun s : State => s.link.merged.length) (by simp) _ _)
  · simp only [endAndStop]
    exact (foldl_keeps (fun s : State => s.link.inbound) (by simp) _ _).trans (foldl_keeps (fun s : State => s.link.inbound) (by simp) _ _)

/-- The sizes and the inbound list after: steps 3 and 4 of a boundary. -/
@[simp] theorem joinAndOpen_size (s : State) :
    (joinAndOpen s).eng.lanes.length = s.eng.lanes.length := by
  simp only [joinAndOpen]
  repeat' split
  all_goals simp

/-- The sizes and the inbound list after: a frame boundary. -/
@[simp] theorem boundaryNow_size (s : State) :
    (boundaryNow s).img.tiles.length = s.img.tiles.length ∧ (boundaryNow s).eng.lanes.length = s.eng.lanes.length ∧
    (boundaryNow s).link.merged.length = s.link.merged.length ∧
    (boundaryNow s).link.inbound = s.link.inbound := by
  refine ⟨?_, ?_, ?_, ?_⟩
  · exact (foldl_keeps (fun s : State => s.img.tiles.length) (by simp) _ _).trans (by simp)
  · exact (foldl_keeps (fun s : State => s.eng.lanes.length) (by simp) _ _).trans (by simp)
  · exact (foldl_keeps (fun s : State => s.link.merged.length) (by simp) _ _).trans (by simp)
  · exact (foldl_keeps (fun s : State => s.link.inbound) (by simp) _ _).trans (by simp)

/-- The sizes and the inbound list after: an entry is aborted. -/
@[simp] theorem abortEntry_size (e : QEntry) (s : State) :
    (abortEntry s e).eng.lanes.length = s.eng.lanes.length ∧
    (abortEntry s e).link.merged.length = s.link.merged.length ∧
    (abortEntry s e).link.inbound = s.link.inbound := by
  simp only [abortEntry]
  simp

/-- The sizes and the inbound list after: ABORT. -/
@[simp] theorem abortNow_size (id : Option Nat) (s : State) :
    (abortNow id s).img.tiles.length = s.img.tiles.length ∧ (abortNow id s).eng.lanes.length = s.eng.lanes.length ∧
    (abortNow id s).link.merged.length = s.link.merged.length ∧
    (abortNow id s).link.inbound = s.link.inbound := by
  refine ⟨?_, ?_, ?_, ?_⟩
  · have h := foldl_keeps (fun s : State => s.img.tiles.length) (f := abortEntry) (by simp) (s.abortEntries id) s
    simp only [abortNow]; (repeat' split) <;> simp [h]
  · have h := foldl_keeps (fun s : State => s.eng.lanes.length) (f := abortEntry) (by simp) (s.abortEntries id) s
    simp only [abortNow]; (repeat' split) <;> simp [h]
  · have h := foldl_keeps (fun s : State => s.link.merged.length) (f := abortEntry) (by simp) (s.abortEntries id) s
    simp only [abortNow]; (repeat' split) <;> simp [h]
  · have h := foldl_keeps (fun s : State => s.link.inbound) (f := abortEntry) (by simp) (s.abortEntries id) s
    simp only [abortNow]; (repeat' split) <;> simp [h]

/-- The sizes and the inbound list after: a channel changes. -/
@[simp] theorem onChannel_size (c : Nat) (f : Channel → Channel) (s : State) :
    (s.onChannel c f).fetch.channels.length = s.fetch.channels.length := by
  simp only [State.onChannel]
  simp

/-- The sizes and the inbound list after: a credit is granted. -/
@[simp] theorem grantCredit_size (c : Nat) (s : State) :
    (grantCredit c s).pool.length = s.pool.length ∧
    (grantCredit c s).fetch.channels.length = s.fetch.channels.length := by
  simp only [grantCredit]
  simp

/-- The sizes and the inbound list after: the credits of a point. -/
@[simp] theorem creditLoop_size (n : Nat) (s : State) :
    (creditLoop n s).pool.length = s.pool.length ∧ (creditLoop n s).fetch.channels.length = s.fetch.channels.length := by
  induction n generalizing s with
  | zero => simp [creditLoop]
  | succ n ih =>
    simp only [creditLoop]
    repeat' split
    all_goals simp [ih]

/-- The sizes and the inbound list after: a credit point. -/
@[simp] theorem creditPoint_size (s : State) :
    (creditPoint s).pool.length = s.pool.length ∧ (creditPoint s).fetch.channels.length = s.fetch.channels.length := by
  simp only [creditPoint]
  simp

/-- The sizes and the inbound list after: a channel's slabs are freed. -/
@[simp] theorem freeChannel_size (c : Nat) (s : State) :
    (freeChannel c s).pool.length = s.pool.length := by
  simp only [freeChannel]
  simp

/-- The sizes and the inbound list after: a chunk's slab is freed. -/
@[simp] theorem freeChunk_size (c i : Nat) (s : State) :
    (freeChunk c i s).pool.length = s.pool.length := by
  simp only [freeChunk]
  simp

/-- The sizes and the inbound list after: a channel closes. -/
@[simp] theorem becomeClosed_size (c : Nat) (s : State) :
    (becomeClosed c s).pool.length = s.pool.length ∧
    (becomeClosed c s).fetch.channels.length = s.fetch.channels.length ∧
    (becomeClosed c s).link.merged.length = s.link.merged.length ∧
    (becomeClosed c s).link.inbound = s.link.inbound := by
  simp only [becomeClosed]
  simp

/-- The sizes and the inbound list after: a CLOSING channel's check. -/
@[simp] theorem closingCheck_size (c : Nat) (s : State) :
    (closingCheck c s).pool.length = s.pool.length ∧
    (closingCheck c s).fetch.channels.length = s.fetch.channels.length ∧
    (closingCheck c s).link.merged.length = s.link.merged.length ∧
    (closingCheck c s).link.inbound = s.link.inbound := by
  simp only [closingCheck]
  repeat' split
  all_goals simp

/-- The sizes and the inbound list after: a channel fails. -/
@[simp] theorem failCore_size (c : Nat) (r : FailReason) (s : State) :
    (failCore c r s).pool.length = s.pool.length ∧
    (failCore c r s).fetch.channels.length = s.fetch.channels.length ∧
    (failCore c r s).link.merged.length = s.link.merged.length ∧
    (failCore c r s).link.inbound = s.link.inbound := by
  simp only [failCore]
  repeat' split
  all_goals simp

/-- The sizes and the inbound list after: a chunk is marked BAD. -/
@[simp] theorem markBad_size (c i : Nat) (s : State) :
    (markBad c i s).fetch.channels.length = s.fetch.channels.length := by
  simp only [markBad]
  simp

/-- The sizes and the inbound list after: a chunk is stored. -/
@[simp] theorem chunkStored_size (c i : Nat) (s : State) :
    (chunkStored c i s).pool.length = s.pool.length ∧
    (chunkStored c i s).fetch.channels.length = s.fetch.channels.length ∧
    (chunkStored c i s).link.merged.length = s.link.merged.length ∧
    (chunkStored c i s).link.inbound = s.link.inbound := by
  simp only [chunkStored]
  repeat' split
  all_goals simp

/-- The sizes and the inbound list after: an erase's outcome. -/
@[simp] theorem eraseOutcome_size (c : Nat) (e : OpEnd) (s : State) :
    (eraseOutcome c e s).pool.length = s.pool.length ∧
    (eraseOutcome c e s).fetch.channels.length = s.fetch.channels.length ∧
    (eraseOutcome c e s).link.merged.length = s.link.merged.length ∧
    (eraseOutcome c e s).link.inbound = s.link.inbound := by
  cases e <;> simp only [eraseOutcome]
  all_goals (try split)
  all_goals simp

/-- The sizes and the inbound list after: a program's outcome. -/
@[simp] theorem programOutcome_size (c i : Nat) (e : OpEnd) (s : State) :
    (programOutcome c i e s).pool.length = s.pool.length ∧
    (programOutcome c i e s).fetch.channels.length = s.fetch.channels.length ∧
    (programOutcome c i e s).link.merged.length = s.link.merged.length ∧
    (programOutcome c i e s).link.inbound = s.link.inbound := by
  cases e <;> simp only [programOutcome]
  all_goals (try split)
  all_goals simp

/-- The sizes and the inbound list after: the slot empties. -/
@[simp] theorem emptySlot_size (e : OpEnd) (s : State) :
    (emptySlot e s).fetch.channels.length = s.fetch.channels.length := by
  simp only [emptySlot]

/-- The sizes and the inbound list after: an outcome of the slot. -/
@[simp] theorem fetchOutcome_size (e : OpEnd) (s : State) :
    (fetchOutcome e s).pool.length = s.pool.length ∧
    (fetchOutcome e s).fetch.channels.length = s.fetch.channels.length ∧
    (fetchOutcome e s).link.merged.length = s.link.merged.length ∧
    (fetchOutcome e s).link.inbound = s.link.inbound := by
  simp only [fetchOutcome]
  repeat' split
  all_goals simp

/-- The sizes and the inbound list after: the slot is filled. -/
@[simp] theorem fillSlot_size (c : Nat) (k : Option Nat) (s : State) :
    (fillSlot c k s).fetch.channels.length = s.fetch.channels.length := by
  simp only [fillSlot]
  repeat' split
  all_goals simp

/-- The sizes and the inbound list after: an outcome is delivered. -/
@[simp] theorem deliver_size (o : Op) (e : OpEnd) (b : List Byte) (s : State) :
    (deliver o e b s).pool.length = s.pool.length ∧
    (deliver o e b s).fetch.channels.length = s.fetch.channels.length ∧
    (deliver o e b s).link.merged.length = s.link.merged.length ∧
    (deliver o e b s).link.inbound = s.link.inbound := by
  simp only [deliver]
  repeat' split
  all_goals simp

/-- The sizes and the inbound list after: the store's claim is sent. -/
@[simp] theorem sendStoreClaim_size (o : Op) (s : State) :
    (sendStoreClaim o s).img.tiles.length = s.img.tiles.length ∧
    (sendStoreClaim o s).eng.lanes.length = s.eng.lanes.length ∧
    (sendStoreClaim o s).link.merged.length = s.link.merged.length ∧
    (sendStoreClaim o s).link.inbound = s.link.inbound := by
  simp only [sendStoreClaim]
  simp

/-- The sizes and the inbound list after: the store's selections. -/
@[simp] theorem selectLoop_size (n : Nat) (s : State) :
    (selectLoop n s).img.tiles.length = s.img.tiles.length ∧
    (selectLoop n s).eng.lanes.length = s.eng.lanes.length ∧ (selectLoop n s).pool.length = s.pool.length ∧
    (selectLoop n s).fetch.channels.length = s.fetch.channels.length ∧
    (selectLoop n s).link.merged.length = s.link.merged.length ∧
    (selectLoop n s).link.inbound = s.link.inbound := by
  induction n generalizing s with
  | zero => simp [selectLoop]
  | succ n ih =>
    simp only [selectLoop]
    repeat' split
    all_goals simp [ih]

/-- The sizes and the inbound list after: a selection point. -/
@[simp] theorem selectPoint_size (s : State) :
    (selectPoint s).img.tiles.length = s.img.tiles.length ∧ (selectPoint s).eng.lanes.length = s.eng.lanes.length ∧
    (selectPoint s).pool.length = s.pool.length ∧ (selectPoint s).fetch.channels.length = s.fetch.channels.length ∧
    (selectPoint s).link.merged.length = s.link.merged.length ∧
    (selectPoint s).link.inbound = s.link.inbound := by
  simp only [selectPoint]
  simp

/-- The sizes and the inbound list after: the slot's choices. -/
@[simp] theorem scheduleLoop_size (n : Nat) (s : State) :
    (scheduleLoop n s).pool.length = s.pool.length ∧
    (scheduleLoop n s).fetch.channels.length = s.fetch.channels.length ∧
    (scheduleLoop n s).link.merged.length = s.link.merged.length ∧
    (scheduleLoop n s).link.inbound = s.link.inbound := by
  induction n generalizing s with
  | zero => simp [scheduleLoop]
  | succ n ih =>
    simp only [scheduleLoop]
    repeat' split
    all_goals simp [ih]

/-- The sizes and the inbound list after: a scheduling point. -/
@[simp] theorem schedulePoint_size (s : State) :
    (schedulePoint s).img.tiles.length = s.img.tiles.length ∧
    (schedulePoint s).eng.lanes.length = s.eng.lanes.length ∧ (schedulePoint s).pool.length = s.pool.length ∧
    (schedulePoint s).fetch.channels.length = s.fetch.channels.length ∧
    (schedulePoint s).link.merged.length = s.link.merged.length ∧
    (schedulePoint s).link.inbound = s.link.inbound := by
  simp only [schedulePoint]
  simp

/-- The sizes and the inbound list after: what follows an outcome. -/
@[simp] theorem afterOutcome_size (o : Op) (s : State) :
    (afterOutcome o s).img.tiles.length = s.img.tiles.length ∧
    (afterOutcome o s).eng.lanes.length = s.eng.lanes.length ∧ (afterOutcome o s).pool.length = s.pool.length ∧
    (afterOutcome o s).fetch.channels.length = s.fetch.channels.length ∧
    (afterOutcome o s).link.merged.length = s.link.merged.length ∧
    (afterOutcome o s).link.inbound = s.link.inbound := by
  simp only [afterOutcome]
  repeat' split
  all_goals simp

/-- The sizes and the inbound list after: an operation leaves the flash. -/
@[simp] theorem clearOp_size (f : FlashState) (s : State) :
    (clearOp f s).img.tiles.length = s.img.tiles.length ∧ (clearOp f s).eng.lanes.length = s.eng.lanes.length ∧
    (clearOp f s).link.merged.length = s.link.merged.length ∧
    (clearOp f s).link.inbound = s.link.inbound := by
  simp only [clearOp]
  repeat' split
  all_goals simp

/-- The sizes and the inbound list after: an operation ends. -/
@[simp] theorem endOp_size (o : Op) (e : OpEnd) (b : List Byte) (s : State) :
    (endOp o e b s).img.tiles.length = s.img.tiles.length ∧ (endOp o e b s).eng.lanes.length = s.eng.lanes.length ∧
    (endOp o e b s).pool.length = s.pool.length ∧ (endOp o e b s).fetch.channels.length = s.fetch.channels.length ∧
    (endOp o e b s).link.merged.length = s.link.merged.length ∧
    (endOp o e b s).link.inbound = s.link.inbound := by
  simp only [endOp]
  simp

/-- The sizes and the inbound list after: an operation ends TIMEOUT. -/
@[simp] theorem endTimeout_size (o : Op) (s : State) :
    (endTimeout o s).img.tiles.length = s.img.tiles.length ∧
    (endTimeout o s).eng.lanes.length = s.eng.lanes.length ∧ (endTimeout o s).pool.length = s.pool.length ∧
    (endTimeout o s).fetch.channels.length = s.fetch.channels.length ∧
    (endTimeout o s).link.merged.length = s.link.merged.length ∧
    (endTimeout o s).link.inbound = s.link.inbound := by
  simp only [endTimeout]
  simp

/-- The sizes and the inbound list after: a batch read overruns. -/
@[simp] theorem batchOverrun_size (rd er : Op) (s : State) :
    (batchOverrun rd er s).img.tiles.length = s.img.tiles.length ∧
    (batchOverrun rd er s).eng.lanes.length = s.eng.lanes.length ∧
    (batchOverrun rd er s).pool.length = s.pool.length ∧
    (batchOverrun rd er s).fetch.channels.length = s.fetch.channels.length ∧
    (batchOverrun rd er s).link.merged.length = s.link.merged.length ∧
    (batchOverrun rd er s).link.inbound = s.link.inbound := by
  simp only [batchOverrun]
  simp

/-- The sizes and the inbound list after: the queue ends FAULT. -/
@[simp] theorem faultQueue_size (s : State) :
    (faultQueue s).pool.length = s.pool.length ∧ (faultQueue s).fetch.channels.length = s.fetch.channels.length ∧
    (faultQueue s).link.merged.length = s.link.merged.length ∧
    (faultQueue s).link.inbound = s.link.inbound := by
  refine ⟨?_, ?_, ?_, ?_⟩
  · exact (foldl_keeps (fun s : State => s.pool.length) (by simp) _ _).trans (by simp)
  · exact (foldl_keeps (fun s : State => s.fetch.channels.length) (by simp) _ _).trans (by simp)
  · exact (foldl_keeps (fun s : State => s.link.merged.length) (by simp) _ _).trans (by simp)
  · exact (foldl_keeps (fun s : State => s.link.inbound) (by simp) _ _).trans (by simp)

/-- The sizes and the inbound list after: a flash reset is over. -/
@[simp] theorem resetOver_size (f : FlashState) (s : State) :
    (resetOver f s).img.tiles.length = s.img.tiles.length ∧ (resetOver f s).eng.lanes.length = s.eng.lanes.length ∧
    (resetOver f s).pool.length = s.pool.length ∧ (resetOver f s).fetch.channels.length = s.fetch.channels.length ∧
    (resetOver f s).link.merged.length = s.link.merged.length ∧
    (resetOver f s).link.inbound = s.link.inbound := by
  simp only [resetOver]
  repeat' split
  all_goals simp

/-- The sizes and the inbound list after: the store goes OFFLINE. -/
@[simp] theorem goOffline_size (s : State) :
    (goOffline s).img.tiles.length = s.img.tiles.length ∧ (goOffline s).eng.lanes.length = s.eng.lanes.length ∧
    (goOffline s).pool.length = s.pool.length ∧ (goOffline s).fetch.channels.length = s.fetch.channels.length ∧
    (goOffline s).link.merged.length = s.link.merged.length ∧
    (goOffline s).link.inbound = s.link.inbound := by
  simp only [goOffline]
  simp

/-- The sizes and the inbound list after: the slot is ignored. -/
@[simp] theorem ignoreSlot_size (s : State) :
    (ignoreSlot s).fetch.channels.length = s.fetch.channels.length := by
  simp only [ignoreSlot]

/-- The sizes and the inbound list after: a failed channel's operation. -/
@[simp] theorem cutOp_size (c : Nat) (s : State) :
    (cutOp c s).img.tiles.length = s.img.tiles.length ∧ (cutOp c s).eng.lanes.length = s.eng.lanes.length ∧
    (cutOp c s).pool.length = s.pool.length ∧ (cutOp c s).fetch.channels.length = s.fetch.channels.length ∧
    (cutOp c s).link.merged.length = s.link.merged.length ∧
    (cutOp c s).link.inbound = s.link.inbound := by
  simp only [cutOp]
  repeat' split
  all_goals simp

/-- The sizes and the inbound list after: a channel's failure. -/
@[simp] theorem failChannel_size (c : Nat) (r : FailReason) (s : State) :
    (failChannel c r s).img.tiles.length = s.img.tiles.length ∧
    (failChannel c r s).eng.lanes.length = s.eng.lanes.length ∧ (failChannel c r s).pool.length = s.pool.length ∧
    (failChannel c r s).fetch.channels.length = s.fetch.channels.length ∧
    (failChannel c r s).link.merged.length = s.link.merged.length ∧
    (failChannel c r s).link.inbound = s.link.inbound := by
  simp only [failChannel]
  simp

/-- The sizes and the inbound list after: a chunk is found BAD. -/
@[simp] theorem foundBad_size (c i : Nat) (s : State) :
    (foundBad c i s).img.tiles.length = s.img.tiles.length ∧
    (foundBad c i s).eng.lanes.length = s.eng.lanes.length ∧ (foundBad c i s).pool.length = s.pool.length ∧
    (foundBad c i s).fetch.channels.length = s.fetch.channels.length ∧
    (foundBad c i s).link.merged.length = s.link.merged.length ∧
    (foundBad c i s).link.inbound = s.link.inbound := by
  simp only [foundBad]
  repeat' split
  all_goals simp

/-- The sizes and the inbound list after: the engine's claim is judged. -/
@[simp] theorem judgeEngineClaim_size (s : State) :
    (judgeEngineClaim s).eng.lanes.length = s.eng.lanes.length ∧
    (judgeEngineClaim s).link.merged.length = s.link.merged.length ∧
    (judgeEngineClaim s).link.inbound = s.link.inbound := by
  simp only [judgeEngineClaim]
  repeat' split
  all_goals simp

/-- The sizes and the inbound list after: the store's claim is judged. -/
@[simp] theorem judgeStoreClaim_size (s : State) :
    (judgeStoreClaim s).pool.length = s.pool.length ∧
    (judgeStoreClaim s).fetch.channels.length = s.fetch.channels.length ∧
    (judgeStoreClaim s).link.merged.length = s.link.merged.length ∧
    (judgeStoreClaim s).link.inbound = s.link.inbound := by
  simp only [judgeStoreClaim]
  repeat' split
  all_goals simp

/-- The sizes and the inbound list after: the cut to a new limit. -/
@[simp] theorem cutToLimit_size (s : State) :
    (cutToLimit s).link.merged.length = s.link.merged.length ∧
    (cutToLimit s).link.inbound = s.link.inbound := by
  simp only [cutToLimit]
  repeat' split
  all_goals simp

/-- The sizes and the inbound list after: the end of a pause. -/
@[simp] theorem unpause_size (b : Bool) (s : State) :
    (unpause b s).img.tiles.length = s.img.tiles.length ∧ (unpause b s).eng.lanes.length = s.eng.lanes.length ∧
    (unpause b s).pool.length = s.pool.length ∧ (unpause b s).fetch.channels.length = s.fetch.channels.length ∧
    (unpause b s).link.merged.length = s.link.merged.length ∧
    (unpause b s).link.inbound = s.link.inbound := by
  simp only [unpause]
  repeat' split
  all_goals simp

/-- The sizes and the inbound list after: a new limit. -/
@[simp] theorem newLimit_size (n : Nat) (s : State) :
    (newLimit n s).img.tiles.length = s.img.tiles.length ∧ (newLimit n s).eng.lanes.length = s.eng.lanes.length ∧
    (newLimit n s).pool.length = s.pool.length ∧ (newLimit n s).fetch.channels.length = s.fetch.channels.length ∧
    (newLimit n s).link.merged.length = s.link.merged.length ∧
    (newLimit n s).link.inbound = s.link.inbound := by
  simp only [newLimit]
  repeat' split
  all_goals simp

/-- The sizes and the inbound list after: a BATT sample. -/
@[simp] theorem battSample_size (raw : Nat) (s : State) :
    (battSample raw s).img.tiles.length = s.img.tiles.length ∧
    (battSample raw s).eng.lanes.length = s.eng.lanes.length ∧ (battSample raw s).pool.length = s.pool.length ∧
    (battSample raw s).fetch.channels.length = s.fetch.channels.length ∧
    (battSample raw s).link.merged.length = s.link.merged.length ∧
    (battSample raw s).link.inbound = s.link.inbound := by
  simp only [battSample]
  repeat' split
  all_goals simp

/-- The sizes and the inbound list after: entries' slabs are freed. -/
@[simp] theorem freeEntries_size (l : List Nat) (s : State) :
    (freeEntries l s).pool.length = s.pool.length ∧
    (freeEntries l s).fetch.channels.length = s.fetch.channels.length := by
  simp only [freeEntries]
  simp

/-- The sizes and the inbound list after: a turn's exchange. -/
@[simp] theorem exchange_size (d : Dir) (e : Entry) (l : List Entry) (s : State) :
    (exchange d e l s).img.tiles.length = s.img.tiles.length ∧ (exchange d e l s).pool.length = s.pool.length := by
  simp only [exchange]
  repeat' split
  all_goals simp [allPending]

/-- The sizes and the inbound list after: a turn. -/
@[simp] theorem turnNow_size (d : Dir) (o : Source) (p : Nat) (e : Entry) (l : List Entry) (s : State) :
    (turnNow d o p e l s).img.tiles.length = s.img.tiles.length ∧
    (turnNow d o p e l s).eng.lanes.length = s.eng.lanes.length ∧
    (turnNow d o p e l s).pool.length = s.pool.length ∧
    (turnNow d o p e l s).fetch.channels.length = s.fetch.channels.length ∧
    (turnNow d o p e l s).link.merged.length = s.link.merged.length ∧
    (turnNow d o p e l s).link.inbound = s.link.inbound := by
  simp only [turnNow]
  simp

/-- The sizes and the inbound list after: a turn attempt. -/
@[simp] theorem turnAttempt_size (d : Dir) (o : Source) (p : Nat) (s : State) :
    (turnAttempt d o p s).img.tiles.length = s.img.tiles.length ∧
    (turnAttempt d o p s).eng.lanes.length = s.eng.lanes.length ∧
    (turnAttempt d o p s).pool.length = s.pool.length ∧
    (turnAttempt d o p s).fetch.channels.length = s.fetch.channels.length ∧
    (turnAttempt d o p s).link.merged.length = s.link.merged.length ∧
    (turnAttempt d o p s).link.inbound = s.link.inbound := by
  simp only [turnAttempt]
  repeat' split
  all_goals simp

/-- The sizes and the inbound list after: a key's turn attempt. -/
@[simp] theorem keyTurn_size (k : Key) (d : Dir) (s : State) :
    (keyTurn k d s).img.tiles.length = s.img.tiles.length ∧ (keyTurn k d s).eng.lanes.length = s.eng.lanes.length ∧
    (keyTurn k d s).pool.length = s.pool.length ∧ (keyTurn k d s).fetch.channels.length = s.fetch.channels.length ∧
    (keyTurn k d s).link.merged.length = s.link.merged.length ∧
    (keyTurn k d s).link.inbound = s.link.inbound := by
  simp only [keyTurn]
  repeat' split
  all_goals simp

/-- The sizes and the inbound list after: a run's tick. -/
@[simp] theorem runTickNow_size (k : Key) (d : Dir) (n : Nat) (s : State) :
    (runTickNow k d n s).img.tiles.length = s.img.tiles.length ∧
    (runTickNow k d n s).eng.lanes.length = s.eng.lanes.length ∧ (runTickNow k d n s).pool.length = s.pool.length ∧
    (runTickNow k d n s).fetch.channels.length = s.fetch.channels.length ∧
    (runTickNow k d n s).link.merged.length = s.link.merged.length ∧
    (runTickNow k d n s).link.inbound = s.link.inbound := by
  simp only [runTickNow]
  repeat' split
  all_goals simp

/-- The sizes and the inbound list after: a settle update. -/
@[simp] theorem settleRun_size (d : Dir) (s : State) :
    (settleRun d s).img.tiles.length = s.img.tiles.length ∧ (settleRun d s).eng.lanes.length = s.eng.lanes.length ∧
    (settleRun d s).link.merged.length = s.link.merged.length ∧
    (settleRun d s).link.inbound = s.link.inbound := by
  simp only [settleRun]
  repeat' split
  all_goals simp

/-- The sizes and the inbound list after: the LIGHT toggle. -/
@[simp] theorem toggleLight_size (s : State) :
    (toggleLight s).link.merged.length = s.link.merged.length ∧
    (toggleLight s).link.inbound = s.link.inbound := by
  simp only [toggleLight]
  repeat' split
  all_goals simp

/-- The sizes and the inbound list after: SLEEP is entered. -/
@[simp] theorem enterSleep_size (s : State) :
    (enterSleep s).link.merged.length = s.link.merged.length ∧
    (enterSleep s).link.inbound = s.link.inbound := by
  simp only [enterSleep]
  repeat' split
  all_goals simp

/-- The sizes and the inbound list after: the drain is judged. -/
@[simp] theorem drainJudge_size (s : State) :
    (drainJudge s).link.merged.length = s.link.merged.length ∧
    (drainJudge s).link.inbound = s.link.inbound := by
  simp only [drainJudge]
  repeat' split
  all_goals simp

/-- The sizes and the inbound list after: power control's judging. -/
@[simp] theorem judgePower_size (s : State) :
    (judgePower s).link.merged.length = s.link.merged.length ∧
    (judgePower s).link.inbound = s.link.inbound := by
  simp only [judgePower]
  simp

/-- The sizes and the inbound list after: the credits are withdrawn. -/
@[simp] theorem withdrawCredits_size (s : State) :
    (withdrawCredits s).pool.length = s.pool.length := by
  simp only [withdrawCredits]
  simp

/-- The sizes and the inbound list after: a drain starts. -/
@[simp] theorem drainStart_size (n : Nat) (b : Bool) (s : State) :
    (drainStart n b s).pool.length = s.pool.length ∧ (drainStart n b s).link.merged.length = s.link.merged.length ∧
    (drainStart n b s).link.inbound = s.link.inbound := by
  simp only [drainStart]
  simp

/-- The sizes and the inbound list after: a drain returns. -/
@[simp] theorem drainReturn_size (p : PowerState) (s : State) :
    (drainReturn p s).img.tiles.length = s.img.tiles.length ∧
    (drainReturn p s).eng.lanes.length = s.eng.lanes.length ∧ (drainReturn p s).pool.length = s.pool.length ∧
    (drainReturn p s).fetch.channels.length = s.fetch.channels.length ∧
    (drainReturn p s).link.merged.length = s.link.merged.length ∧
    (drainReturn p s).link.inbound = s.link.inbound := by
  simp only [drainReturn]
  simp

/-- The sizes and the inbound list after: a drain is cancelled. -/
@[simp] theorem drainCancel_size (s : State) :
    (drainCancel s).img.tiles.length = s.img.tiles.length ∧ (drainCancel s).eng.lanes.length = s.eng.lanes.length ∧
    (drainCancel s).pool.length = s.pool.length ∧ (drainCancel s).fetch.channels.length = s.fetch.channels.length ∧
    (drainCancel s).link.merged.length = s.link.merged.length ∧
    (drainCancel s).link.inbound = s.link.inbound := by
  simp only [drainCancel]
  simp

/-- The sizes and the inbound list after: a drain fails. -/
@[simp] theorem drainFail_size (s : State) :
    (drainFail s).img.tiles.length = s.img.tiles.length ∧ (drainFail s).eng.lanes.length = s.eng.lanes.length ∧
    (drainFail s).pool.length = s.pool.length ∧ (drainFail s).fetch.channels.length = s.fetch.channels.length ∧
    (drainFail s).link.merged.length = s.link.merged.length ∧
    (drainFail s).link.inbound = s.link.inbound := by
  simp only [drainFail]
  simp

/-- The sizes and the inbound list after: a host packet arrives. -/
@[simp] theorem hostArrives_size (s : State) :
    (hostArrives s).img.tiles.length = s.img.tiles.length ∧ (hostArrives s).eng.lanes.length = s.eng.lanes.length ∧
    (hostArrives s).pool.length = s.pool.length ∧ (hostArrives s).fetch.channels.length = s.fetch.channels.length ∧
    (hostArrives s).link.merged.length = s.link.merged.length ∧
    (hostArrives s).link.inbound = s.link.inbound := by
  simp only [hostArrives]
  repeat' split
  all_goals simp

/-- The sizes and the inbound list after: a page key's wake action. -/
@[simp] theorem wakeTurn_size (k : Key) (d : Dir) (s : State) :
    (wakeTurn k d s).img.tiles.length = s.img.tiles.length ∧
    (wakeTurn k d s).eng.lanes.length = s.eng.lanes.length ∧ (wakeTurn k d s).pool.length = s.pool.length ∧
    (wakeTurn k d s).fetch.channels.length = s.fetch.channels.length ∧
    (wakeTurn k d s).link.merged.length = s.link.merged.length ∧
    (wakeTurn k d s).link.inbound = s.link.inbound := by
  simp only [wakeTurn]
  repeat' split
  all_goals simp

/-- The sizes and the inbound list after: the LIGHT key's wake action. -/
@[simp] theorem wakeLight_size (s : State) :
    (wakeLight s).link.merged.length = s.link.merged.length ∧
    (wakeLight s).link.inbound = s.link.inbound := by
  simp only [wakeLight]
  repeat' split
  all_goals simp

/-- The sizes and the inbound list after: a wake source's action. -/
@[simp] theorem wakeAction_size (w : WakeSource) (s : State) :
    (wakeAction w s).img.tiles.length = s.img.tiles.length ∧
    (wakeAction w s).eng.lanes.length = s.eng.lanes.length ∧ (wakeAction w s).pool.length = s.pool.length ∧
    (wakeAction w s).fetch.channels.length = s.fetch.channels.length ∧
    (wakeAction w s).link.merged.length = s.link.merged.length ∧
    (wakeAction w s).link.inbound = s.link.inbound := by
  cases w <;> simp [wakeAction]

/-- The sizes and the inbound list after: the part leaves SLEEP. -/
@[simp] theorem wakeEnd_size (s : State) :
    (wakeEnd s).img.tiles.length = s.img.tiles.length ∧ (wakeEnd s).eng.lanes.length = s.eng.lanes.length ∧
    (wakeEnd s).pool.length = s.pool.length ∧ (wakeEnd s).fetch.channels.length = s.fetch.channels.length ∧
    (wakeEnd s).link.merged.length = s.link.merged.length ∧
    (wakeEnd s).link.inbound = s.link.inbound := by
  refine ⟨?_, ?_, ?_, ?_, ?_, ?_⟩
  · have h := foldl_keeps (fun s : State => s.img.tiles.length) (f := fun s w => wakeAction w s) (by simp) s.pow.waking (wakeBlocks s)
    simp [wakeEnd, h]
  · have h := foldl_keeps (fun s : State => s.eng.lanes.length) (f := fun s w => wakeAction w s) (by simp) s.pow.waking (wakeBlocks s)
    simp [wakeEnd, h]
  · have h := foldl_keeps (fun s : State => s.pool.length) (f := fun s w => wakeAction w s) (by simp) s.pow.waking (wakeBlocks s)
    simp [wakeEnd, h]
  · have h := foldl_keeps (fun s : State => s.fetch.channels.length) (f := fun s w => wakeAction w s) (by simp) s.pow.waking (wakeBlocks s)
    simp [wakeEnd, h]
  · have h := foldl_keeps (fun s : State => s.link.merged.length) (f := fun s w => wakeAction w s) (by simp) s.pow.waking (wakeBlocks s)
    simp [wakeEnd, h]
  · have h := foldl_keeps (fun s : State => s.link.inbound) (f := fun s w => wakeAction w s) (by simp) s.pow.waking (wakeBlocks s)
    simp [wakeEnd, h]

/-- The sizes and the inbound list after: the flash's operation at a warm reset. -/
@[simp] theorem warmOp_size (o : Op) (s : State) :
    (warmOp o s).img.tiles.length = s.img.tiles.length ∧ (warmOp o s).eng.lanes.length = s.eng.lanes.length ∧
    (warmOp o s).link.merged.length = s.link.merged.length ∧
    (warmOp o s).link.inbound = s.link.inbound := by
  simp only [warmOp]
  repeat' split
  all_goals simp

/-- The sizes and the inbound list after: the store at a warm reset. -/
@[simp] theorem warmStore_size (s : State) :
    (warmStore s).img.tiles.length = s.img.tiles.length ∧ (warmStore s).eng.lanes.length = s.eng.lanes.length ∧
    (warmStore s).link.merged.length = s.link.merged.length ∧
    (warmStore s).link.inbound = s.link.inbound := by
  simp only [warmStore]
  repeat' split
  all_goals simp

/-! ## Content -/

/-- Operations on the content keep its canonical form. -/
theorem freeRange_content (a n : Nat) (s : State) (h : memWf s.content = true) : memWf (freeRange a n s).content = true :=
  memWf_memWrite _ _ h

/-- What a TIMEOUT leaves is canonical. -/
theorem timeoutContent_content (o : Op) (s : State) (h : memWf s.content = true) :
    memWf (timeoutContent o s).content = true := by
  simp only [timeoutContent]
  split
  · exact h
  · exact memWf_memProgram _ _ h
  · exact freeRange_content _ _ _ h

/-- What a FAULT leaves is canonical. -/
theorem faultContent_content (o : Op) (s : State) (h : memWf s.content = true) :
    memWf (faultContent o s).content = true := by
  simp only [faultContent]
  split
  · exact h
  · exact freeRange_content _ _ _ h
  · exact freeRange_content _ _ _ h

/-- A programmed page is canonical. -/
theorem programPage_content (a p : Nat) (d : List Byte) (s : State) (h : memWf s.content = true) :
    memWf (programPage a p d s).content = true :=
  memWf_memProgram _ _ h

end Sys2Proof.Machine
end

