-- ==== Sys2Proof/Laws/State.lean ====
section
/-! SUPPORT. Laws/State.lean: what each update of the state writes, field by field, true by `rfl`. What each shared operation
leaves is in Laws/Frames.lean. -/

namespace Sys2Proof.Machine

open Sys2Proof

/-! ## The clock -/

@[simp] theorem State.upTo_now (s : State) (due : Nat) : (s.upTo due).now = max s.now due := rfl
@[simp] theorem State.upTo_pending (s : State) (due : Nat) : (s.upTo due).pending = s.pending := rfl
@[simp] theorem State.upTo_fresh (s : State) (due : Nat) : (s.upTo due).fresh = s.fresh := rfl
@[simp] theorem State.upTo_lastLink (s : State) (due : Nat) : (s.upTo due).lastLink = s.lastLink := rfl
@[simp] theorem State.upTo_lastRadio (s : State) (due : Nat) : (s.upTo due).lastRadio = s.lastRadio := rfl
@[simp] theorem State.upTo_displayPlace (s : State) (due : Nat) : (s.upTo due).displayPlace = s.displayPlace := rfl
@[simp] theorem State.upTo_settings (s : State) (due : Nat) : (s.upTo due).settings = s.settings := rfl
@[simp] theorem State.upTo_img (s : State) (due : Nat) : (s.upTo due).img = s.img := rfl
@[simp] theorem State.upTo_wav (s : State) (due : Nat) : (s.upTo due).wav = s.wav := rfl
@[simp] theorem State.upTo_conv (s : State) (due : Nat) : (s.upTo due).conv = s.conv := rfl
@[simp] theorem State.upTo_eng (s : State) (due : Nat) : (s.upTo due).eng = s.eng := rfl
@[simp] theorem State.upTo_pool (s : State) (due : Nat) : (s.upTo due).pool = s.pool := rfl
@[simp] theorem State.upTo_cache (s : State) (due : Nat) : (s.upTo due).cache = s.cache := rfl
@[simp] theorem State.upTo_keys (s : State) (due : Nat) : (s.upTo due).keys = s.keys := rfl
@[simp] theorem State.upTo_light (s : State) (due : Nat) : (s.upTo due).light = s.light := rfl
@[simp] theorem State.upTo_sup (s : State) (due : Nat) : (s.upTo due).sup = s.sup := rfl
@[simp] theorem State.upTo_fetch (s : State) (due : Nat) : (s.upTo due).fetch = s.fetch := rfl
@[simp] theorem State.upTo_store (s : State) (due : Nat) : (s.upTo due).store = s.store := rfl
@[simp] theorem State.upTo_content (s : State) (due : Nat) : (s.upTo due).content = s.content := rfl
@[simp] theorem State.upTo_pow (s : State) (due : Nat) : (s.upTo due).pow = s.pow := rfl
@[simp] theorem State.upTo_link (s : State) (due : Nat) : (s.upTo due).link = s.link := rfl

/-! ## The record an update changes -/

@[simp] theorem State.onPow_pow (s : State) (f : Power → Power) : (s.onPow f).pow = f s.pow := rfl
@[simp] theorem State.onLight_light (s : State) (f : FrontLight → FrontLight) : (s.onLight f).light = f s.light := rfl
@[simp] theorem State.onStore_store (s : State) (f : Store → Store) : (s.onStore f).store = f s.store := rfl
@[simp] theorem State.onCache_cache (s : State) (f : PageCache → PageCache) : (s.onCache f).cache = f s.cache := rfl
@[simp] theorem State.onKey_keys (s : State) (k : Key) (f : KeyScan → KeyScan) :
    (s.onKey k f).keys = s.keys.setKey k (f (s.keys.key k)) := rfl
@[simp] theorem State.onChannel_reception (s : State) (c : Nat) (f : Channel → Channel) :
    (s.onChannel c f).fetch.reception = s.fetch.reception := rfl
@[simp] theorem State.onChannel_lastGranted (s : State) (c : Nat) (f : Channel → Channel) :
    (s.onChannel c f).fetch.lastGranted = s.fetch.lastGranted := rfl
@[simp] theorem State.onChannel_lastGiven (s : State) (c : Nat) (f : Channel → Channel) :
    (s.onChannel c f).fetch.lastGiven = s.fetch.lastGiven := rfl
@[simp] theorem State.onChannel_slot (s : State) (c : Nat) (f : Channel → Channel) :
    (s.onChannel c f).fetch.slot = s.fetch.slot := rfl
@[simp] theorem State.onChannel_paused (s : State) (c : Nat) (f : Channel → Channel) :
    (s.onChannel c f).fetch.paused = s.fetch.paused := rfl
@[simp] theorem State.onChannel_channels (s : State) (c : Nat) (f : Channel → Channel) :
    (s.onChannel c f).fetch.channels = s.fetch.channels.modify c f := rfl
@[simp] theorem State.mapWave_nextNum (s : State) (n : Nat) (f : Wave → Wave) :
    (s.mapWave n f).wav.nextNum = s.wav.nextNum := rfl
@[simp] theorem State.mapWave_table (s : State) (n : Nat) (f : Wave → Wave) :
    (s.mapWave n f).wav.table = s.wav.table := rfl
@[simp] theorem State.mapWave_reading (s : State) (n : Nat) (f : Wave → Wave) :
    (s.mapWave n f).wav.reading = s.wav.reading := rfl
@[simp] theorem State.mapWave_band (s : State) (n : Nat) (f : Wave → Wave) :
    (s.mapWave n f).wav.band = s.wav.band := rfl
@[simp] theorem State.mapWave_outOfRange (s : State) (n : Nat) (f : Wave → Wave) :
    (s.mapWave n f).wav.outOfRange = s.wav.outOfRange := rfl
@[simp] theorem State.mapWave_fault (s : State) (n : Nat) (f : Wave → Wave) :
    (s.mapWave n f).wav.fault = s.wav.fault := rfl
@[simp] theorem State.mapWave_events (s : State) (n : Nat) (f : Wave → Wave) :
    (s.mapWave n f).wav.events = s.wav.events := rfl
@[simp] theorem State.mapWave_interval (s : State) (n : Nat) (f : Wave → Wave) :
    (s.mapWave n f).wav.interval = s.wav.interval := rfl
@[simp] theorem State.mapWave_waves (s : State) (n : Nat) (f : Wave → Wave) :
    (s.mapWave n f).wav.waves = s.wav.waves.map fun w => if w.num = n then f w else w := rfl

/-! ## The page link -/

@[simp] theorem State.addOut_inbound (s : State) (i : OutItem) : (s.addOut i).link.inbound = s.link.inbound := rfl
@[simp] theorem State.addOut_opened (s : State) (i : OutItem) : (s.addOut i).link.opened = s.link.opened := rfl
@[simp] theorem State.addOut_out (s : State) (i : OutItem) : (s.addOut i).link.out = s.link.out ++ [i] := rfl
@[simp] theorem State.addOut_wakeTransfer (s : State) (i : OutItem) : (s.addOut i).link.wakeTransfer = s.link.wakeTransfer := rfl
@[simp] theorem State.addOut_reading (s : State) (i : OutItem) : (s.addOut i).link.reading = s.link.reading := rfl
@[simp] theorem State.addOut_merged (s : State) (i : OutItem) : (s.addOut i).link.merged = s.link.merged := rfl
@[simp] theorem State.addOut_doneMod (s : State) (i : OutItem) : (s.addOut i).link.doneMod = s.link.doneMod := rfl
@[simp] theorem State.addOut_fetchMod (s : State) (i : OutItem) : (s.addOut i).link.fetchMod = s.link.fetchMod := rfl
@[simp] theorem State.addOut_crc (s : State) (i : OutItem) : (s.addOut i).link.crc = s.link.crc := rfl
@[simp] theorem State.addOut_framing (s : State) (i : OutItem) : (s.addOut i).link.framing = s.link.framing := rfl
@[simp] theorem State.addOut_notReady (s : State) (i : OutItem) : (s.addOut i).link.notReady = s.link.notReady := rfl
@[simp] theorem State.addOut_events (s : State) (i : OutItem) : (s.addOut i).link.events = s.link.events := rfl
@[simp] theorem respond_inbound (r : Request) (c : Code) (b : List Byte) (s : State) :
    (respond r c b s).link.inbound = s.link.inbound := rfl
@[simp] theorem respond_wakeTransfer (r : Request) (c : Code) (b : List Byte) (s : State) :
    (respond r c b s).link.wakeTransfer = s.link.wakeTransfer := rfl
@[simp] theorem respond_opened (r : Request) (c : Code) (b : List Byte) (s : State) :
    (respond r c b s).link.opened = s.link.opened := rfl
@[simp] theorem respond_out (r : Request) (c : Code) (b : List Byte) (s : State) :
    (respond r c b s).link.out = s.link.out ++
      [.response { kindByte := byteOf r.kind.code, tag := r.tag, code := c, body := b }] := rfl
@[simp] theorem respond_reading (r : Request) (c : Code) (b : List Byte) (s : State) :
    (respond r c b s).link.reading = s.link.reading := rfl
@[simp] theorem respond_merged (r : Request) (c : Code) (b : List Byte) (s : State) :
    (respond r c b s).link.merged = s.link.merged := rfl
@[simp] theorem respond_doneMod (r : Request) (c : Code) (b : List Byte) (s : State) :
    (respond r c b s).link.doneMod = s.link.doneMod := rfl
@[simp] theorem respond_fetchMod (r : Request) (c : Code) (b : List Byte) (s : State) :
    (respond r c b s).link.fetchMod = s.link.fetchMod := rfl
@[simp] theorem respond_crc (r : Request) (c : Code) (b : List Byte) (s : State) :
    (respond r c b s).link.crc = s.link.crc := rfl
@[simp] theorem respond_framing (r : Request) (c : Code) (b : List Byte) (s : State) :
    (respond r c b s).link.framing = s.link.framing := rfl
@[simp] theorem respond_notReady (r : Request) (c : Code) (b : List Byte) (s : State) :
    (respond r c b s).link.notReady = s.link.notReady := rfl
@[simp] theorem respond_events (r : Request) (c : Code) (b : List Byte) (s : State) :
    (respond r c b s).link.events = s.link.events := rfl
@[simp] theorem mergeTrigger_inbound (k : NoticeKind) (s : State) : (mergeTrigger k s).link.inbound =
    s.link.inbound := rfl
@[simp] theorem mergeTrigger_opened (k : NoticeKind) (s : State) : (mergeTrigger k s).link.opened =
    s.link.opened := rfl
@[simp] theorem mergeTrigger_out (k : NoticeKind) (s : State) : (mergeTrigger k s).link.out =
    s.link.out := rfl
@[simp] theorem mergeTrigger_reading (k : NoticeKind) (s : State) : (mergeTrigger k s).link.reading =
    s.link.reading := rfl
@[simp] theorem mergeTrigger_merged (k : NoticeKind) (s : State) : (mergeTrigger k s).link.merged =
    s.link.merged.modify k.index fun n => min 255 (n + 1) := rfl
@[simp] theorem mergeTrigger_doneMod (k : NoticeKind) (s : State) : (mergeTrigger k s).link.doneMod =
    s.link.doneMod := rfl
@[simp] theorem mergeTrigger_fetchMod (k : NoticeKind) (s : State) : (mergeTrigger k s).link.fetchMod =
    s.link.fetchMod := rfl
@[simp] theorem mergeTrigger_crc (k : NoticeKind) (s : State) : (mergeTrigger k s).link.crc =
    s.link.crc := rfl
@[simp] theorem mergeTrigger_framing (k : NoticeKind) (s : State) : (mergeTrigger k s).link.framing =
    s.link.framing := rfl
@[simp] theorem mergeTrigger_notReady (k : NoticeKind) (s : State) : (mergeTrigger k s).link.notReady =
    s.link.notReady := rfl
@[simp] theorem mergeTrigger_events (k : NoticeKind) (s : State) : (mergeTrigger k s).link.events =
    s.link.events := rfl

@[simp] theorem State.setModeration_done (s : State) (v : Moderation) : (s.setModeration .done v).link =
    { s.link with doneMod := v } := rfl
@[simp] theorem State.setModeration_fetch (s : State) (v : Moderation) : (s.setModeration .fetch v).link =
    { s.link with fetchMod := v } := rfl

/-! ## The engine, the pool and the supply budget -/

@[simp] theorem dropEntry_queue (n : Nat) (s : State) :
    (dropEntry n s).eng.queue = s.eng.queue.filter fun e => e.num != n := rfl
@[simp] theorem dropEntry_lanes (n : Nat) (s : State) : (dropEntry n s).eng.lanes = s.eng.lanes := rfl
@[simp] theorem dropEntry_base (n : Nat) (s : State) : (dropEntry n s).eng.base = s.eng.base := rfl
@[simp] theorem dropEntry_supply (n : Nat) (s : State) : (dropEntry n s).eng.supply = s.eng.supply := rfl
@[simp] theorem dropEntry_boundary (n : Nat) (s : State) : (dropEntry n s).eng.boundary = s.eng.boundary := rfl
@[simp] theorem dropEntry_completions (n : Nat) (s : State) : (dropEntry n s).eng.completions = s.eng.completions := rfl
@[simp] theorem dropEntry_nextNum (n : Nat) (s : State) : (dropEntry n s).eng.nextNum = s.eng.nextNum := rfl
@[simp] theorem grantCredit_pool (c : Nat) (s : State) : (grantCredit c s).pool = takeSlab (.credit c) s.pool := rfl
@[simp] theorem grantCredit_lastGranted (c : Nat) (s : State) : (grantCredit c s).fetch.lastGranted = c := rfl
@[simp] theorem grantCredit_channels (c : Nat) (s : State) :
    (grantCredit c s).fetch.channels = s.fetch.channels := rfl
@[simp] theorem dropOldest_waiting (s : State) : (dropOldest s).sup.waiting = s.sup.waiting.tail := rfl
@[simp] theorem dropOldest_limit (s : State) : (dropOldest s).sup.limit = s.sup.limit := rfl
@[simp] theorem dropClaims_waiting (w : Claimant) (s : State) :
    (dropClaims w s).sup.waiting = s.sup.waiting.filter fun c => c.who != w := rfl
@[simp] theorem dropClaims_limit (w : Claimant) (s : State) : (dropClaims w s).sup.limit = s.sup.limit := rfl
@[simp] theorem startOp_store (g : Option Nat) (s : State) : (startOp g s).store =
    { s.store with flash := .running, grant := g, page := 0, cut := false, suspends := 0, ran := 0, since := s.now } := rfl
@[simp] theorem State.putSetting_settings (s : State) (st : Setting) (v : Int) :
    (s.putSetting st v).settings = s.settings.set ((settingRow st).number - 1) v := rfl

/-! ## The keys -/

@[simp] theorem Scanner.key_setKey (k : Scanner) (key : Key) (v : KeyScan) : (k.setKey key v).key key = v := by
  cases key <;> rfl

@[simp] theorem Scanner.key_setKey_ne (k : Scanner) (key other : Key) (v : KeyScan) (h : other ≠ key) :
    (k.setKey key v).key other = k.key other := by
  cases key <;> cases other <;> first | rfl | exact absurd rfl h

@[simp] theorem Scanner.setKey_setKey (k : Scanner) (key : Key) (v w : KeyScan) :
    (k.setKey key v).setKey key w = k.setKey key w := by
  cases key <;> rfl
@[simp] theorem Scanner.setKey_records (k : Scanner) (key : Key) (v : KeyScan) :
    (k.setKey key v).records = k.records := by
  cases key <;> rfl
@[simp] theorem Scanner.setKey_lost (k : Scanner) (key : Key) (v : KeyScan) : (k.setKey key v).lost = k.lost := by
  cases key <;> rfl
@[simp] theorem Scanner.setKey_epoch (k : Scanner) (key : Key) (v : KeyScan) : (k.setKey key v).epoch = k.epoch := by
  cases key <;> rfl

/-! ## Lists -/

@[simp] theorem PageCache.list_setList (c : PageCache) (d : Dir) (l : List Entry) : (c.setList d l).list d = l := by
  cases d <;> rfl
@[simp] theorem PageCache.list_setList_other (c : PageCache) (d : Dir) (l : List Entry) :
    (c.setList d l).list d.other = c.list d.other := by
  cases d <;> rfl
@[simp] theorem Dir.other_other (d : Dir) : d.other.other = d := by cases d <;> rfl

end Sys2Proof.Machine
end

