-- ==== Sys2Proof/Laws/Take.lean ====
section
/-! SUPPORT. Laws/Take.lean: a take removes one request from the inbound list, so that the takes of an event do not depend
on their fuel (R167). -/

namespace Sys2Proof.Machine

open Sys2Proof

/-- A new value of a setting leaves the inbound list. -/
@[simp] theorem storeSetting_inbound (st : Setting) (v : Int) (s : State) :
    (storeSetting st v s).link.inbound = s.link.inbound := by
  have h1 (u : State) : (linkSettings st u).link.inbound = u.link.inbound := by
    unfold linkSettings; repeat' split
    all_goals simp [State.putSetting]
  have h2 (u : State) : (settingEffect st u).link.inbound = u.link.inbound := by
    unfold settingEffect; repeat' split
    all_goals simp
  exact (h2 _).trans (h1 _)

/-- A store request leaves the inbound list. -/
@[simp] theorem joinOrFault_inbound (r : Request) (k : OpKind) (s : State) :
    (joinOrFault r k s).link.inbound = s.link.inbound := by
  simp only [joinOrFault, hostJoins]; split <;> simp

/-- Serving a taken request leaves the requests that wait. -/
@[simp] theorem serve_inbound (k : ReqKind) (r : Request) (s : State) : (serve k r s).link.inbound = s.link.inbound := by
  cases k <;>
    simp only [serve, servePixels, serveToneMap, serveUpdate, serveAbort, servePageTag, serveCacheOpen, serveCacheReady,
      serveCacheDrop, serveTurn, serveWaveBegin, serveWaveData, serveWaveEnd, serveWaveDrop, serveBands, serveLight,
      serveFollow, serveFetchOpen, serveFetchSums, serveFetchArm, serveFetchClose, serveFetchStatus, serveStoreRead,
      serveStoreProgram, serveStoreErase, serveSet, serveGet, serveStatus, serveLimits, serveDoze, serveSleep, serveWake] <;>
    (repeat' split) <;>
    simp [writeEntry, putToneMap, openEntry, dropOne, dropList, openWave, fillWave, commitWave, putBands, putFollow,
      closeArmed, freeCredits, putLimits] <;> (repeat' split) <;> simp

/-- A due request is the oldest of its stream, and its owner is free. -/
theorem due_taken {s : State} {k : ReqKind} (h : s.due = some k) : ∃ r : Request, s.taken k = some r ∧ r ∈ s.link.inbound := by
  simp only [State.due, Option.map_eq_some_iff] at h
  obtain ⟨r, hr, rfl⟩ := h
  obtain ⟨hp, older, newer, he, ho⟩ := List.find?_eq_some_iff_append.1 hr
  refine ⟨r, ?_, by simp [he]⟩
  have : s.oldest r.kind.stream = some r := by
    simp only [State.oldest]
    refine List.find?_eq_some_iff_append.2 ⟨by simp, older, newer, he, fun a ha => ?_⟩
    have := ho a ha
    simp only [Bool.not_eq_true', beq_eq_false_iff_ne]
    intro e; rw [e, hp] at this; exact absurd this (by simp)
  simp [State.taken, this, hp]

/-- A due take removes one request from the inbound list. -/
theorem take_length {s : State} {k : ReqKind} (h : s.due = some k) :
    (takeRequest k (serve k) s).link.inbound.length + 1 = s.link.inbound.length := by
  obtain ⟨r, hr, _⟩ := due_taken h
  have ho : s.oldest k.stream = some r := by
    simp only [State.taken] at hr
    split at hr
    · cases hr
    · rename_i h1; split at hr
      · cases hr; exact h1
      · cases hr
  obtain ⟨hp, older, newer, he, _⟩ := List.find?_eq_some_iff_append.1 ho
  have hm : r ∈ s.link.inbound := by simp [he]
  have hl := List.length_eraseP_of_mem (p := fun r => r.kind.stream == k.stream) hm hp
  have h0 : 0 < s.link.inbound.length := List.length_pos_of_mem hm
  simp only [takeRequest, hr, serve_inbound, leaveInbound]
  omega

/-- No request is due when none waits. -/
theorem due_none_of_empty {s : State} (h : s.link.inbound = []) : s.due = none := by simp [State.due, h]

/-- Fuel above the number of waiting requests changes nothing. -/
theorem takeDue_fuel (n : Nat) (s : State) (h : s.link.inbound.length ≤ n) :
    takeDue n s = takeDue s.link.inbound.length s := by
  generalize hl : s.link.inbound.length = l at h ⊢
  induction l generalizing n s with
  | zero =>
    have : s.due = none := due_none_of_empty (List.eq_nil_of_length_eq_zero hl)
    cases n <;> simp [takeDue, this]
  | succ l ih =>
    obtain ⟨m, rfl⟩ : ∃ m, n = m + 1 := ⟨n - 1, by omega⟩
    simp only [takeDue]
    split
    · rfl
    · rename_i k hk
      exact ih m _ (by have := take_length hk; omega) (by omega)

/-- After the takes of an event no request is due. -/
theorem takeDue_due (n : Nat) (s : State) (h : s.link.inbound.length ≤ n) : (takeDue n s).due = none := by
  induction n generalizing s with
  | zero => exact due_none_of_empty (List.eq_nil_of_length_eq_zero (Nat.le_zero.1 h))
  | succ n ih =>
    simp only [takeDue]
    split
    · assumption
    · rename_i k hk
      exact ih _ (by have := take_length hk; omega)

end Sys2Proof.Machine
end

