-- ==== Sys2Proof/Laws/Walks.lean ====
section
/-! SUPPORT. Laws/Walks.lean: the loops that are bounded by fuel, a decision pass, the boot walk and the judging of an image, do
not depend on it once it is enough. -/

namespace Sys2Proof.Machine

open Sys2Proof

/-- A trigger changes the link alone. -/
theorem trigger_changes_link (k : NoticeKind) (s : State) : trigger k s = { s with link := (trigger k s).link } := by
  unfold trigger; split <;> rfl

/-- The work of a decision pass: the claims that wait, and the entries that may yet send one. -/
def claimWork (s : State) : Nat := s.sup.waiting.length + s.eng.queue.countP fun e => e.pick.isNone

/-- What a completion record changes in the engine. -/
theorem appendCompletion_eng (c : Completion) (s : State) : (appendCompletion c s).eng = { s.eng with completions := s.eng.completions ++ [c] } := by
  unfold appendCompletion; simp only []; split <;> simp

/-- Ending an entry makes no work for the pass. -/
theorem claimWork_endEntry (e st m p) (s : State) : claimWork (endEntry e st m p s) ≤ claimWork s := by
  have h1 : (endEntry e st m p s).sup = s.sup := by simp [endEntry, dropEntry]
  have h2 : (endEntry e st m p s).eng.queue = s.eng.queue.filter fun a => a.num != e.num := by unfold endEntry; rw [appendCompletion_eng]; rfl
  unfold claimWork; rw [h1, h2]
  have := List.Sublist.countP_le (p := fun e : QEntry => e.pick.isNone) (List.filter_sublist (l := s.eng.queue) (p := fun a => a.num != e.num))
  omega

/-- The first eligible entry is an entry of the queue. -/
theorem firstEligible_mem (s : State) (q : List QEntry) : ∀ ahead e, s.firstEligible ahead q = some e → e ∈ q := by
  induction q with
  | nil => intro a e h; cases h
  | cons x q ih =>
    intro a e h; unfold State.firstEligible at h
    split at h
    · cases h; simp
    · exact List.mem_cons_of_mem _ (ih _ _ h)

/-- Setting a pick takes one entry out of those without a pick. -/
theorem countP_setPick (q : List QEntry) (e : QEntry) (p : Pick) (he : e ∈ q) (hn : e.pick = none) :
    (q.map (setPick e.num p)).countP (fun e => e.pick.isNone) + 1 ≤ q.countP fun e => e.pick.isNone := by
  have mono : ∀ q : List QEntry, (q.map (setPick e.num p)).countP (fun e => e.pick.isNone) ≤ q.countP fun e => e.pick.isNone := by
    intro q
    induction q with
    | nil => simp
    | cons x q ih =>
      rw [List.map_cons, List.countP_cons, List.countP_cons]
      have : (if (setPick e.num p x).pick.isNone = true then 1 else 0) ≤ (if x.pick.isNone = true then 1 else 0) := by
        unfold setPick; split <;> simp
      omega
  induction q with
  | nil => cases he
  | cons x q ih =>
    rw [List.map_cons, List.countP_cons, List.countP_cons]
    rcases List.mem_cons.1 he with rfl | he
    · have := mono q
      simp only [setPick, if_true, hn, Option.isNone_some, Option.isNone_none]; simp only [Bool.false_eq_true, if_false]; omega
    · have := ih he
      have : (if (setPick e.num p x).pick.isNone = true then 1 else 0) ≤ (if x.pick.isNone = true then 1 else 0) := by
        unfold setPick; split <;> simp
      omega

/-- A look makes no work for the pass: a claim that it sends is an entry that now has its pick. -/
theorem claimWork_lookLoop (n) (s : State) : claimWork (lookLoop n s) ≤ claimWork s := by
  induction n generalizing s with
  | zero => exact Nat.le_refl _
  | succ n ih =>
    unfold lookLoop
    split
    · exact Nat.le_refl _
    · rename_i hc
      split
      · exact Nat.le_refl _
      · split
        · have h1 : (tempDemand s).sup = s.sup := by unfold tempDemand; split <;> simp
          have h2 : (tempDemand s).eng = s.eng := by unfold tempDemand; split <;> simp
          exact Nat.le_of_eq (by unfold claimWork; rw [h1, h2])
        · split
          · exact Nat.le_refl _
          · rename_i e he
            split
            · exact Nat.le_trans (ih _) (claimWork_endEntry ..)
            · exact Nat.le_trans (ih _) (claimWork_endEntry ..)
            · rename_i p hp
              have hm := firstEligible_mem s _ _ _ he
              have hcn : s.claimingEntry = none := by simpa using hc
              have hn : e.pick = none := by
                have := List.find?_eq_none.1 hcn e hm; simpa using this
              have := countP_setPick s.eng.queue e p hm hn
              unfold claimWork sendClaim
              show (s.sup.waiting ++ [p.claim]).length + (s.eng.queue.map (setPick e.num p)).countP (fun e => e.pick.isNone) ≤ _
              rw [List.length_append, List.length_singleton]; omega

/-- Starting a lane makes no work for the pass. -/
theorem claimWork_startLane (s : State) : claimWork (startLane s) ≤ claimWork s := by
  unfold startLane
  split
  · exact Nat.le_refl _
  · rename_i e _
    split
    · exact Nat.le_refl _
    · rename_i p _
      have : ∀ u : State, (startPanel u).sup = u.sup ∧ (startPanel u).eng.queue = u.eng.queue := by
        intro u; unfold startPanel; split <;> exact ⟨rfl, rfl⟩
      unfold claimWork
      simp only [this]
      show s.sup.waiting.length + (s.eng.queue.filter fun a => a.num != e.num).countP (fun e => e.pick.isNone) ≤ _
      have := List.Sublist.countP_le (p := fun e : QEntry => e.pick.isNone) (List.filter_sublist (l := s.eng.queue) (p := fun a => a.num != e.num))
      omega

/-- Each grant is one piece of the work. -/
theorem claimWork_grantClaim (c : Claim) (rest) (s : State) (h : s.sup.waiting = c :: rest) : claimWork (grantClaim c s) + 1 ≤ claimWork s := by
  have h0 : claimWork (dropOldest s) + 1 = claimWork s := by
    unfold claimWork
    show s.sup.waiting.tail.length + s.eng.queue.countP _ + 1 = _
    rw [h]; simp; omega
  unfold grantClaim
  split
  · have := claimWork_lookLoop ((startLane (dropOldest s)).eng.queue.length + 1) (startLane (dropOldest s))
    have := claimWork_startLane (dropOldest s)
    unfold look; omega
  · show claimWork (dropOldest s) + 1 ≤ _; omega

/-- A cut of the light leaves the work as it is. -/
theorem claimWork_cutLight (g) (s : State) : claimWork (cutLight g s) = claimWork s := by
  have h1 : (cutLight g s).sup.waiting = s.sup.waiting := by
    unfold cutLight; split
    · unfold recordBudget; rw [trigger_changes_link]; show (setGrant g _).sup.waiting = _; unfold setGrant judgeCutMark; split
      · unfold recordBudget; rw [trigger_changes_link]; show (judgeLight _).sup.waiting = _; simp [lightMix, State.onLight]
      · simp [lightMix, State.onLight]
    · rfl
  have h2 : (cutLight g s).eng = s.eng := by simp
  unfold claimWork; rw [h1, h2]

/-- Fuel above the work gives one and the same pass. -/
theorem passLoop_fuel (n m : Nat) (s : State) (h1 : claimWork s < n) (h2 : claimWork s < m) : passLoop n s = passLoop m s := by
  induction n generalizing m s with
  | zero => omega
  | succ n ih =>
    cases m with
    | zero => omega
    | succ m =>
      unfold passLoop
      split
      · rfl
      · rename_i c rest hw
        have hg := claimWork_grantClaim c rest s hw
        split
        · exact ih _ _ (by omega) (by omega)
        · split
          · have hw2 : (cutLight (s.sup.limit - (s.others + c.amount)) s).sup.waiting = c :: rest := by
              rw [← hw]
              unfold cutLight; split
              · unfold recordBudget; rw [trigger_changes_link]; show (setGrant _ _).sup.waiting = _; unfold setGrant judgeCutMark; split
                · unfold recordBudget; rw [trigger_changes_link]; show (judgeLight _).sup.waiting = _; simp [lightMix, State.onLight]
                · simp [lightMix, State.onLight]
              · rfl
            have hg2 := claimWork_grantClaim c rest _ hw2
            rw [claimWork_cutLight] at hg2
            exact ih _ _ (by omega) (by omega)
          · rfl

/-- The fuel of a decision pass is above its work. -/
theorem claimWork_lt (s : State) : claimWork s < s.eng.queue.length + s.sup.waiting.length + 1 := by
  have := List.countP_le_length (p := fun e : QEntry => e.pick.isNone) (l := s.eng.queue)
  unfold claimWork; omega

/-- A cut of the light leaves the waiting claims. -/
theorem cutLight_waiting (g) (s : State) : (cutLight g s).sup.waiting = s.sup.waiting := by
  unfold cutLight; split
  · unfold recordBudget; rw [trigger_changes_link]; show (setGrant _ _).sup.waiting = _; unfold setGrant judgeCutMark; split
    · unfold recordBudget; rw [trigger_changes_link]; show (judgeLight _).sup.waiting = _; simp [lightMix, State.onLight]
    · simp [lightMix, State.onLight]
  · rfl

/-- Fuel above the bytes left gives one and the same walk. -/
theorem walkLoop_fuel (es : List Byte) (n m k : Nat) (u : State) (h1 : es.length < n + k) (h2 : es.length < m + k) (h3 : 1 ≤ n) (h4 : 1 ≤ m) :
    walkLoop es n k u = walkLoop es m k u := by
  induction n generalizing m k u with
  | zero => omega
  | succ n ih =>
    cases m with
    | zero => omega
    | succ m =>
      unfold walkLoop
      simp only []
      split
      · rfl
      · split
        · rfl
        · split
          · rfl
          · have step : ∀ v, walkLoop es n (k + 3 + nat16At es (k + 1)) v = walkLoop es m (k + 3 + nat16At es (k + 1)) v := by
              intro v; exact ih _ _ _ (by omega) (by omega) (by omega) (by omega)
            simp only [step]

/-- Fuel above the bytes gives one and the same judging of an image. -/
theorem imageLoop_fuel (left : Nat) (n m : Nat) (bs : List Byte) (u : State) (h1 : bs.length < n) (h2 : bs.length < m) :
    imageLoop left n bs u = imageLoop left m bs u := by
  induction n generalizing m bs u with
  | zero => omega
  | succ n ih =>
    cases m with
    | zero => omega
    | succ m =>
      unfold imageLoop
      repeat' split
      all_goals first
        | rfl
        | (apply ih <;> (rw [List.length_drop]; have : 8 ≤ recordSize bs := by (unfold recordSize; omega)); all_goals omega)

end Sys2Proof.Machine
end

