-- ==== Sys2Proof/WellFormed.lean ====
section
/-! DEFINITION. WellFormed.lean: which terms of `Instr` are commands that the part's surroundings can send. -/

namespace Sys2Proof

/-- A command is well formed when its operands lie in the ranges the spec gives them: a chunk header is nine
bytes (R176) and a raw value is 0-4095 (R31). Any number of bytes may be clocked in a write transfer (R165)
or after a chunk header (R123), and every other operand's type has exactly the spec's values. -/
def Instr.wellFormed : Instr → Bool
  | .chunkHeader bytes => bytes.length == 9
  | .conversionEnd raw => decide (raw < 4096)
  | _ => true

end Sys2Proof
end

