-- ==== Sys2Proof/Tests/Slice0.lean ====
section
/-! SUPPORT. Tests/Slice0.lean: smoke tests of WellFormed, the numbers that the spec works out, small steps, and for each
statement with hypotheses a state and operands that meet them. -/

namespace Sys2Proof.Tests

open Sys2Proof Sys2Proof.Machine Sys2Proof.Claims

/-! ## WellFormed -/

theorem test_wellFormed_refuses_short_header : (Instr.chunkHeader [1, 2, 3, 4, 5, 6, 7, 8]).wellFormed = false := by decide
theorem test_wellFormed_takes_nine_bytes : (Instr.chunkHeader [1, 2, 3, 4, 5, 6, 7, 8, 9]).wellFormed = true := by decide
theorem test_wellFormed_refuses_raw_4096 : (Instr.conversionEnd 4096).wellFormed = false := by decide
theorem test_wellFormed_takes_raw_4095 : (Instr.conversionEnd 4095).wellFormed = true := by decide

/-! ## Numbers that the spec works out -/

/-- The nine ASCII bytes "123456789". -/
def digits : List Byte := [0x31, 0x32, 0x33, 0x34, 0x35, 0x36, 0x37, 0x38, 0x39]

/-- R122: over "123456789" the CRC-16 is 0x29B1. -/
theorem test_crc16 : crc16 digits = 0x29B1 := by decide +kernel
/-- R22: over "123456789" the CRC-32 is 0xCBF43926. -/
theorem test_crc32 : crc32 digits = 0xCBF43926 := by decide +kernel
/-- R103: at the defaults 3601 mV gives 260 mA, 3418 mV gives 150 mA, and below 3300 mV 80 mA. -/
theorem test_limits : limitFor defaultLimitTable 3601 = 260 ∧ limitFor defaultLimitTable 3418 = 150 ∧
    limitFor defaultLimitTable 3299 = 80 := by decide
/-- R40: 7,500 tiles at 28 µA have a tile part of 210 mA. -/
theorem test_tile_part : tilePartMa 7500 28 = 210 := by decide
/-- R7: the default tone map ends at level 15 and starts at 0. -/
theorem test_tone_map : defaultToneMap.length = 256 ∧ defaultToneMap.getD 0 1 = 0 ∧ defaultToneMap.getD 255 0 = 15 := by
  decide +kernel
/-- R176: the least significant byte comes first. -/
theorem test_byte_order : le32 0x12345678 = [0x78, 0x56, 0x34, 0x12] := by decide
/-- R63: 225 free slabs after a cold reset. -/
theorem test_reset_slabs : State.reset.freeCount = 225 ∧ State.reset.cacheHeld = 0 ∧ State.reset.fetchHeld = 0 := by
  decide +kernel
/-- R159: READY, ATTN and CREDIT are low after a cold reset. -/
theorem test_reset_lines : State.reset.ready = false ∧ State.reset.attn = false ∧ State.reset.creditLine = false := by
  decide
/-- R28: good readings span -500 dd at raw 1 to 1149 dd at raw 4094. -/
theorem test_temperature : temperatureOf 1 = -500 ∧ temperatureOf 4094 = 1149 := by decide
/-- R100: 0 mV at a filtered value of 0 and 4999 mV at 4095. -/
theorem test_voltage : batteryMv (List.replicate 8 0) = 0 ∧ batteryMv (List.replicate 8 4095) = 4999 := by decide
/-- R94: at the default gain of 16 raw 4095 reads as 1,023 lux; R95's level lies on the table between its points. -/
theorem test_lux : 4095 * 16 / 64 = 1023 ∧ followLevel [(0, 100), (1000, 200)] 500 = 150 := by decide

/-! ## A small state -/

/-- The part in ACTIVE with everything else at reset, one tile, and no conversion running. -/
def base : State :=
  { State.reset with
    img := { ImageStore.reset with tiles := [Tile.reset] }, conv := { Converter.reset with busy := none },
    pow := { Power.reset with state := .active } }

/-- A request with tag 7. -/
def req (k : ReqKind) (body : List Byte) : Request := { kind := k, tag := 7, body := body }

/-- A state with one request open and waiting. -/
def asks (s : State) (k : ReqKind) (body : List Byte) : State :=
  { s with link := { s.link with inbound := [req k body], opened := 1 } }

/-- The state in another power state. -/
def inState (p : PowerState) (s : State) : State := { s with pow := { s.pow with state := p } }

/-- One legal pixel, the first of the panel. -/
def corner : Rect := { x0 := 0, y0 := 0, x1 := 0, y1 := 0 }

/-- A lane over the first tile that has one phase to apply. -/
def lane1 : Lane :=
  { num := 0, id := 9, origin := .host, region := corner, tiles := corner.tileSet, mode := .tone, promoted := false,
    wave := 0, total := 1, phase := 0, grant := 5, state := .driving, dropped := false }

/-- An update over the first tile. -/
def entry1 : QEntry :=
  { num := 3, id := 9, region := corner, tiles := corner.tileSet, mode := .tone, noPromote := true, origin := .host,
    place := 1, pick := none }

/-- A pick of that update. -/
def pick1 : Pick := { mode := .tone, promoted := false, region := corner, wave := 0, tilePart := 1, base := some 15 }

/-- The engine at reset with a queue and a first lane. -/
def engineWith (q : List QEntry) (l : Option Lane) : Engine :=
  { Engine.reset with queue := q, lanes := l :: List.replicate 15 none, boundary := some 100 }

/-- A cache entry. -/
def page (n : Nat) (isOpen : Bool) : Entry :=
  { num := n, tag := 5, turnMode := .text, fill := some 15, isOpen := isOpen, written := [], plane := [] }

/-- A waveform record of one phase for TONE at band 0. -/
def wave1 (st : WaveState) : Wave :=
  { num := 0, mode := .tone, band := 0, current := 28, phases := [List.replicate 64 0], state := st, lanes := 0,
    claimed := false }

/-- A small state with a waveform record, a fresh reading and band 0. -/
def warm (st : WaveState) : State :=
  { base with wav := { WaveStore.reset with waves := [wave1 st], reading := some (200, 0), band := some 0 } }

/-- A manifest of two chunks of 4 KiB in sector 8. -/
def man (sum : Option Word32) : Manifest :=
  { length := 4097, chunkKiB := 4, count := 2, base := 1048576, window := 2, mark := 1, sums := [sum, sum] }

/-- A chunk in a state. -/
def chunkIn (st : ChunkState) (bad : Nat) : Chunk := { state := st, bad := bad, retry := false, payload := [] }

/-- A state whose channel 0 is in a state with two chunks. -/
def channelIn (st : ChanState) (c0 c1 : Chunk) : State :=
  { base with fetch := { Fetch.reset with channels :=
    [{ Channel.reset with state := st, manifest := some (man (some 0)), chunks := [c0, c1] }, .reset, .reset, .reset] } }

/-- An operation of a source. -/
def op (src : OpSource) (k : OpKind) (n : Nat) : Op := { source := src, kind := k, arrival := n }

/-- A state with an operation at the flash. -/
def flashIn (f : FlashState) (o : Option Op) : State := { base with store := { Store.reset with flash := f, op := o } }

/-! ## Small steps -/

/-- The response codes waiting in the outbound queue, oldest first. -/
def codes (s : State) : List Code := s.link.out.filterMap fun i => match i with
  | .response r => some r.code
  | _ => none

/-- The state a command leaves. -/
def after (c : Instr) (s : State) : State := match exec c s with
  | .next t => t
  | _ => s

/-- R149: DOZE takes the part from ACTIVE to DOZE and answers OK. -/
theorem test_doze : (after .doze (asks base .doze [])).pow.state = .doze ∧
    codes (after .doze (asks base .doze [])) = [.ok] := by decide
/-- R87: a level above 1000 is stored as 1000, and the ramp of R88 is armed for 10 ms. -/
theorem test_light : (after .light (asks base .light [0xFF, 0xFF, 9])).light.levelTarget = 1000 ∧
    (after .light (asks base .light [0xFF, 0xFF, 9])).light.ramp = some 10000 := by decide
/-- R173: a value outside its range is clamped: frame_period_us is stored as 30,000. -/
theorem test_set : (after .set (asks base .set (1 :: le32 90000))).setting .framePeriodUs = 30000 := by decide
/-- R173: a negative value is clamped to the lower end. -/
theorem test_set_negative : (after .set (asks base .set (6 :: leInt32 (-300)))).setting .tempLowDd = -200 := by
  decide
/-- R68, R60: CACHE_OPEN of a page takes fifteen slabs. -/
theorem test_cache_open : (after .cacheOpen (asks base .cacheOpen [0, 1, 15, 1, 0, 0, 0])).freeCount = 210 ∧
    codes (after .cacheOpen (asks base .cacheOpen [0, 1, 15, 1, 0, 0, 0])) = [.ok] := by decide +kernel
/-- R135: the boot area is protected while SERVICE is low. -/
theorem test_boot_protected : codes (after .storeErase (asks base .storeErase [7, 0])) = [.shielded] ∧
    codes (after .storeErase (asks base .storeErase [0, 16])) = [.range] := by decide
/-- R31, R99, R159: the first BATT sample sets the limit: raw 2950 is 3601 mV and gives 260 mA. -/
theorem test_first_sample : (after (.conversionEnd 2950) State.reset).sup.limit = 260 := by decide
/-- R39: an update without a waveform in its slot ends NO_WAVEFORM. -/
theorem test_no_waveform :
    ((after .update (asks { warm .retired with sup := { Supply.reset with limit := 400 } } .update
      (le16 9 ++ [0, 0, 0, 0, 0, 0, 0, 0] ++ [1, 1]))).eng.completions.map Completion.status) = [.noWaveform] := by
  decide
/-- R42, R44: with a waveform and room in the limit the lane starts, and the supply begins its start of 3 ms. -/
theorem test_lane_starts :
    (after .update (asks { warm .installed with sup := { Supply.reset with limit := 400 } } .update
      (le16 9 ++ [0, 0, 0, 0, 0, 0, 0, 0] ++ [1, 1]))).eng.boundary = some 3000 := by decide
/-- R164: the sixteenth open request takes READY down. -/
theorem test_ready_falls : ({ base with link := { Link.reset with opened := 15 } } : State).ready = true ∧
    ({ base with link := { Link.reset with opened := 16 } } : State).ready = false := by decide

/-! ## States and operands that meet the statements' hypotheses

One theorem for each statement that has hypotheses: for each of its clauses a concrete state and operands that meet the clause's
hypotheses together, at the ends of their ranges. -/

/-- A request of every kind is taken in ACTIVE. -/
theorem wit_taken (k : ReqKind) (body : List Byte) : (asks base k body).taken k = some (req k body) := by
  cases k <;> rfl

/-- A state in which a packet stalls, so that the DISPLAY owner is not free, with requests waiting. -/
def stallBase (inbound : List Request) : State :=
  { base with
    img := { base.img with stall := some (req .pixels [], { rect := corner, level4 := false, levels := [1], payload := 1, place := 1 }) },
    link := { base.link with inbound := inbound, opened := inbound.length } }

theorem wit_StepRunsFrontCommand :
    ({ base with pending := [.doze, .wake] } : State).pending = .doze :: [.wake] := rfl

theorem wit_IdleStepWaits : base.pending = [] := rfl

theorem wit_FinishTakesThenJudges :
    ((asks base .light [1, 2, 3]).link.inbound = [] ++ req .light [1, 2, 3] :: [] ∧
      (asks base .light [1, 2, 3]).ownerFree ReqKind.light.stream = true) ∧
    ((stallBase [req .abort [1, 0, 0], req .wake []]).link.inbound = [req .abort [1, 0, 0]] ++ req .wake [] :: [] ∧
      (stallBase []).ownerFree ReqKind.wake.stream = true ∧ (stallBase []).ownerFree ReqKind.abort.stream = false) ∧
    (∀ q ∈ base.link.inbound, base.ownerFree q.kind.stream = false) ∧
    base.pow.state = .active ∧
    ((inState .draining { base with eng := engineWith [] (some lane1) }).drained = false) ∧
    ((inState .draining base).drained = true) ∧
    (inState .doze base).pow.resleepPending = false ∧
    (∃ s : State, s.pow.state = .doze ∧ s.pow.resleepPending = true ∧ s.drained = true ∧ s.pow.resleep = none) ∧
    (∃ s : State, s.pow.state = .doze ∧ s.pow.resleepPending = true ∧ s.drained = true ∧ s.pow.resleep ≠ none) ∧
    (∃ s : State, s.pow.state = .doze ∧ s.pow.resleepPending = true ∧ s.drained = false) :=
  ⟨by decide, by decide, by decide, rfl, by decide, by decide, rfl,
   ⟨{ base with pow := { base.pow with state := .doze, resleepPending := true } }, by decide⟩,
   ⟨{ base with pow := { base.pow with state := .doze, resleepPending := true, resleep := some 5 } }, by decide⟩,
   ⟨{ base with pow := { base.pow with state := .doze, resleepPending := true }, eng := engineWith [] (some lane1) },
    by decide⟩⟩

/-- The state at reset, in ACTIVE, with one command. -/
def ready1 : State := { State.reset with pow := base.pow, pending := [.resetRise] }

theorem wit_StepKeepsShape : ready1.shaped = true ∧ ∃ t, step ready1 = .next t := ⟨by decide +kernel, _, rfl⟩

theorem wit_StepKeepsLightSound : ready1.lightSound ∧ ∃ t, step ready1 = .next t :=
  ⟨⟨by decide, by decide⟩, _, rfl⟩

theorem wit_StepKeepsCounts : ready1.counted ∧ ∃ t, step ready1 = .next t :=
  ⟨by unfold State.counted; decide, _, rfl⟩

theorem wit_ColdResetLeaves : base.store.flash.atFlash = false ∧
    (let s : State := { base with store := { Store.reset with flash := .running, op := some (op .nobody (.erase 8) 4) } }
     s.store.flash.atFlash = true ∧ s.store.op = some (op .nobody (.erase 8) 4)) := by
  decide

theorem wit_RequestTakenOldestFirst :
    (asks base .light [1, 2, 3]).taken .light = some (req .light [1, 2, 3]) ∧ base.taken .light = none := by decide

/-- A state whose store holds four host operations, with a STORE request waiting. -/
def storeFull : State :=
  { asks base .storeRead (le32 0 ++ le16 1) with store := { Store.reset with
    flash := .resetting, queue := List.replicate 4 (op (.host (req .storeRead [])) (.read 0 4) 5) } }

/-- Requests of an owner that is not free wait on after a command. -/
theorem wit_RequestTakenOldestFirst_left :
    (∃ t, exec .resetRise (stallBase [req .abort [1, 0, 0]]) = .next t ∧ t.pow.state.awake = true ∧ t.link.inbound ≠ []) ∧
    (∃ t, exec .resetRise storeFull = .next t ∧ t.pow.state.awake = true ∧ t.link.inbound ≠ [] ∧ 4 ≤ t.hostOps) :=
  ⟨⟨_, rfl, by decide, by decide⟩, ⟨_, rfl, by decide, by decide, by decide⟩⟩

theorem wit_ToneMapAndPageTag :
    (∀ b ∈ (req .toneMap (List.replicate 256 15)).body, b.toNat ≤ 15) ∧
    (∃ b ∈ (req .toneMap (List.replicate 256 16)).body, 15 < b.toNat) ∧
    byteAt (req .pageTag [1, 2, 3, 4, 2]).body 4 = Mode.text.code ∧ 3 ≤ byteAt (req .pageTag [1, 2, 3, 4, 3]).body 4 := by
  refine ⟨fun b hb => ?_, ⟨16, List.mem_replicate.2 ⟨by decide, rfl⟩, by decide⟩, by decide, by decide⟩
  rw [List.eq_of_mem_replicate hb]
  decide

/-- A completion record. -/
def done1 : Completion := { id := 1, status := .done, mode := .tone, promoted := false, origin := .host }

/-- An UPDATE body: id 9, the whole panel, a mode and a flag. -/
def updateBody (id mode flag : Nat) : List Byte :=
  le16 id ++ le16 0 ++ le16 0 ++ le16 1599 ++ le16 1199 ++ [byteOf mode, byteOf flag]

theorem wit_UpdateAdmission :
    nat16At (updateBody 0 3 1) 0 = 0 ∧
    (nat16At (updateBody 1 3 1) 0 ≠ 0 ∧ byteAt (updateBody 1 3 1) 10 = Mode.skim.code ∧ byteAt (updateBody 1 3 1) 11 ≤ 1 ∧
      rectAt (updateBody 1 3 1) 2 = { x0 := 0, y0 := 0, x1 := 1599, y1 := 1199 }) ∧
    (let s := { base with eng := { Engine.reset with completions := List.replicate 48 done1 } }
     s.eng.queue.length + s.lanesOccupied + s.eng.completions.length = 48) ∧
    (let s := { base with eng := { Engine.reset with completions := List.replicate 47 done1 } }
     s.eng.queue.length < 32 ∧ s.eng.queue.length + s.lanesOccupied + s.eng.completions.length = 47) := by
  decide

theorem wit_AbortClearsMatches : 1 < byteAt [2, 0, 0] 0 ∧ byteAt [1, 0, 0] 0 ≤ 1 := by decide

/-- A PIXELS body of one GRAY8 pixel at the corner for a destination. -/
def pixelBody (dest : Byte) : List Byte := [dest, 0, 0, 0, 0, 0, 0, 0, 0, 0, 200]

/-- A held packet of a payload over another tile. -/
def heldOf (n : Nat) : HeldPacket :=
  { rect := { x0 := 32, y0 := 0, x1 := 32, y1 := 0 }, level4 := false, levels := [1], payload := n, place := 1 }

/-- The first tile is owned. -/
def ownedBase (held : List HeldPacket) : State :=
  { base with img := { base.img with tiles := [{ Tile.reset with owner := some 0 }], held := held } }

theorem wit_PixelsPackets :
    ¬ (byteAt (pixelBody 8) 0 < 8 ∨ byteAt (pixelBody 8) 0 = 0xFF) ∧
    ((pixelBody 0xFF ++ [1]).drop 10).length ≠ 1 ∧
    (base.cache.entries.find? (fun e => e.num == byteAt (pixelBody 7) 0)) = none ∧
    base.pixelsCheck (pixelBody 0xFF) = none ∧
    (base.owned (base.convertPixels (pixelBody 0xFF)).tiles = false ∧ base.img.held = []) ∧
    ((ownedBase [heldOf 65503]).owned (base.convertPixels (pixelBody 0xFF)).tiles = true ∧
      ((ownedBase [heldOf 65503]).img.held.map fun h => h.payload + 16).sum + (1 + 16) = 65536) ∧
    ((ownedBase [heldOf 65504]).owned (base.convertPixels (pixelBody 0xFF)).tiles = true ∧
      ((ownedBase [heldOf 65504]).img.held.map fun h => h.payload + 16).sum + (1 + 16) = 65537) ∧
    ({ base with cache := { base.cache with back := [page 7 true] } } : State).pixelsCheck (pixelBody 7) = none := by
  decide

theorem wit_CacheOpenMakesEntry :
    ¬ byteAt [2, 0, 0, 0, 0, 0, 0] 0 ≤ 1 ∧
    byteAt [1, 2, 15, 0, 0, 0, 0] 0 = Dir.back.code ∧ byteAt [1, 2, 15, 0, 0, 0, 0] 1 = Mode.text.code ∧
    Dir.back.capacity = ({ PageCache.reset with back := [page 0 true, page 1 true] } : PageCache).back.length ∧
    (let s : State := { base with pool := List.replicate 210 .target ++ List.replicate 30 .free }
     s.freeCount - (s.settingNat .fetchFloor - s.fetchHeld) = 14) ∧
    (let s : State := { base with pool := List.replicate 209 .target ++ List.replicate 31 .free }
     s.freeCount - (s.settingNat .fetchFloor - s.fetchHeld) = 15) := by
  decide +kernel

theorem wit_CacheReadyAndDrop :
    7 < byteAt [8] 0 ∧ base.entryOpen 7 = false ∧
    ({ base with cache := { base.cache with back := [page 7 true] } } : State).entryOpen 7 = true ∧
    2 < byteAt [3, 0] 0 ∧ (byteAt [0, 8] 0 = 0 ∧ 7 < byteAt [0, 8] 1) ∧ base.cache.find 7 = none ∧
    ({ PageCache.reset with back := [page 7 true] } : PageCache).find 7 ≠ none ∧
    byteAt [1, 0] 0 = Dir.forward.code + 1 ∧ byteAt [2, 0] 0 = Dir.back.code + 1 := by
  decide

/-- A state with pages ahead, whose tiles are as given. -/
def turnBase (e : Entry) (pending : Bool) : State :=
  { base with cache := { base.cache with forward := [e] }, img := { base.img with tiles := [{ Tile.reset with pending := pending }] } }

theorem wit_TurnOutcomes :
    1 < byteAt [2] 0 ∧ byteAt [1] 0 = Dir.back.code ∧ base.turnMiss .back = some .empty ∧
    byteAt [0] 0 = Dir.forward.code ∧ (turnBase (page 0 false) false).turnMiss .forward = none ∧
    (turnBase (page 0 true) false).turnMiss .forward = some .notReady ∧
    ({ turnBase (page 0 false) false with eng := engineWith [] (some lane1) } : State).turnMiss .forward = some .busy ∧
    (turnBase (page 0 false) true).turnMiss .forward = some .dirty ∧
    ({ turnBase (page 0 false) false with eng := { Engine.reset with completions := List.replicate 48 done1 } } : State).turnMiss .forward
      = some .full := by
  decide

theorem wit_TurnExchangesPages : (base.cache.list Dir.forward.other).length < Dir.forward.other.capacity := by decide

theorem wit_WaveformLoad :
    (∃ w ∈ (warm .loading).wav.waves, w.state = .loading) ∧
    (¬ (byteAt [4, 0, 1, 0] 0 ≤ 3) ∧ ¬ ∃ w ∈ base.wav.waves, w.state = .loading) ∧
    (let s : State := { base with wav := { WaveStore.reset with waves := [{ wave1 .installed with
        phases := List.replicate 770 [] }] } }
     s.freeUnits < byteAt [3, 0, 255, 0] 2 ∧ byteAt [3, 0, 254, 0] 2 ≤ s.freeUnits) ∧
    base.openLoad = none ∧ (warm .loading).openLoad = some (wave1 .loading) ∧
    (([0] ++ List.replicate 63 0 : List Byte).drop 1).length % 64 ≠ 0 ∧
    1 < byteAt ([1] ++ List.replicate 64 0) 0 + ((([1] ++ List.replicate 64 0 : List Byte)).drop 1).length / 64 ∧
    (byteAt ([0] ++ List.replicate 64 0) 0 + ((([0] ++ List.replicate 64 0 : List Byte)).drop 1).length / 64 = 1) ∧
    crc32 (wave1 .loading).phases.flatten ≠ BitVec.ofNat 32 (nat32At [0, 0, 0, 0] 0) ∧
    crc32 (wave1 .loading).phases.flatten = BitVec.ofNat 32 (nat32At (le32 (crc32 (List.replicate 64 0)).toNat) 0) := by
  decide +kernel

theorem wit_WaveDropAndBands :
    (3 < byteAt [4, 0] 0 ∧ base.wav.table.count ≤ byteAt [0, 1] 1) ∧
    (byteAt [1, 0] 0 = Mode.tone.code ∧ byteAt [1, 0] 1 < base.wav.table.count) ∧
    ¬ (1 ≤ byteAt [0, 0] 0) ∧ (byteAt [2, 50] 0 ≤ 12 ∧ byteAt [2, 50] 1 ≤ 50 ∧ (boundsOf [2, 50]).length ≠ 2 - 1) ∧
    ((boundsOf [3, 50, 5, 0, 5, 0]).length = 3 - 1 ∧ ¬ (boundsOf [3, 50, 5, 0, 5, 0]).Pairwise (· < ·)) ∧
    ((boundsOf [3, 50, 0xFF, 0xFF, 0, 0]).length = 3 - 1 ∧ (boundsOf [3, 50, 0xFF, 0xFF, 0, 0]).Pairwise (· < ·)) ∧
    0 < BandTable.count ⟨1, [], 0⟩ := by
  decide

theorem wit_LightRequestMovesRamp :
    (base.light.ramp = none ∧ base.light.level = base.light.levelTarget ∧ base.light.warmth = base.light.warmthTarget) ∧
    (let l := { FrontLight.reset with levelTarget := 1000 }
     l.ramp = none ∧ l.level ≠ l.levelTarget ∧ base.pow.state.awake = true) ∧
    (let l := { FrontLight.reset with levelTarget := 1, ramp := some 5 }
     l.ramp ≠ none ∧ l.level ≠ l.levelTarget) ∧
    (let l := { FrontLight.reset with ramp := some 5 }
     l.ramp ≠ none ∧ l.level = l.levelTarget ∧ l.warmth = l.warmthTarget) := by
  decide

theorem wit_FollowTurnsOnAndOff :
    ¬ byteAt [2] 0 ≤ 1 ∧ (pairs16 (le16 0 ++ le16 1000)).length = 1 ∧ byteAt [0] 0 = 0 ∧ byteAt [1] 0 = 1 ∧
    ((pairs16 []).length ≠ 1 ∧ (∀ p ∈ pairs16 [], p.2 ≤ 1000) ∧ ((pairs16 []).map Prod.fst).Pairwise (· < ·) ∧
      base.light.table = []) ∧
    (let pts := pairs16 (le16 0 ++ le16 1000 ++ le16 65535 ++ le16 0)
     pts.length ≠ 1 ∧ (∀ p ∈ pts, p.2 ≤ 1000) ∧ (pts.map Prod.fst).Pairwise (· < ·) ∧ pts ≠ []) := by
  decide

theorem wit_RampStepMovesCurrents :
    ({ base with light := { base.light with ramp := some 10 } } : State).light.ramp = some 10 ∧
    levelGap 0 20 ≤ 20 ∧ 20 < levelGap 0 21 ∧ (0 : Nat) ≤ 21 := by
  decide

theorem wit_PwmMixAndPeriod : ({ FrontLight.reset with warmth := 255 } : FrontLight).warmth ≤ 255 ∧ base.light.pwmOn = true ∧
    ({ FrontLight.reset with pwmOn := false } : FrontLight).pwmOn = false := by
  decide

theorem wit_FollowTimers :
    (let s : State := { base with light := { base.light with step := some 4, settle := some 5 } }
     s.light.step = some 4 ∧ s.light.settle = some 5 ∧ s.pow.state = .active ∧ (inState .starting s).pow.state = .starting ∧
       (inState .sleep s).light.step = some 4) := by
  decide

/-- A state with a limit and one waiting claim. -/
def claiming (who : Claimant) (amount limit : Nat) : State :=
  { base with sup := { Supply.reset with limit := limit, waiting := [{ who := who, amount := amount }] } }

theorem wit_DecisionPassOrder :
    (claiming .store 11 10).sup.limit < (claiming .store 11 10).others + 11 ∧
    ((claiming .store 10 10).store.grant = none ∧
      (claiming .store 10 10).others + 10 + (claiming .store 10 10).light.grant ≤ (claiming .store 10 10).sup.limit ∧
      (claiming .store 10 10).light.claim ≤ (claiming .store 10 10).light.grant) ∧
    (base.sup.waiting = [] ∧ base.light.grant ≤ base.light.claim ∧ base.total ≤ base.sup.limit) := by
  decide

theorem wit_SupplyLimitTable :
    3300 ≤ (3300, 80).1 ∧ ((3300, 80).1 < 3301 ∧ 3499 < (3500, 200).1) ∧ (4200, 400).1 ≤ 4200 ∧
    ¬ 2 ≤ (pairs16 (le16 3300 ++ le16 0)).length ∧
    (let pts := pairs16 (le16 3300 ++ le16 0 ++ le16 3301 ++ le16 1000)
     2 ≤ pts.length ∧ (∀ p ∈ pts, p.2 ≤ 1000) ∧ (pts.map Prod.fst).Pairwise (· < ·)) ∧
    (base.sup.volts = none ∧
      ({ Supply.reset with volts := some 3600 } : Supply).volts = some 3600) := by
  decide

/-- The voltage after one sample of an empty filter. -/
def firstMv (raw : Nat) : Nat := ((List.replicate 8 raw).sum / 8 * 5000 + 2048) / 4096

theorem wit_SampleFiltersAndMarks :
    base.sup.lowFired = false ∧ firstMv 2784 < base.settingNat .lowMarkMv ∧ base.settingNat .lowMarkMv ≤ firstMv 2785 ∧
    ({ Supply.reset with lowFired := true } : Supply).lowFired = true ∧ firstMv 2826 ≤ base.settingNat .lowMarkMv + 50 ∧
    base.settingNat .lowMarkMv + 50 < firstMv 2827 := by
  decide

/-- The converter is at work on a channel. -/
def converting (c : Chan) : State := { base with conv := { Converter.reset with busy := some (c, 200) } }

theorem wit_ConverterServesOwners :
    ({ Supply.reset with sample := some 9 } : Supply).sample = some 9 ∧
    (({ WaveStore.reset with interval := some 9 } : WaveStore).interval = some 9 ∧
      ({ Converter.reset with temp := true } : Converter).temp = true ∧ base.conv.temp = false ∧ base.conv.busy = none) ∧
    ((converting .amb).conv.busy = some (.amb, 200) ∧ (converting .batt).pow.state ≠ .starting ∧
      (inState .starting (converting .batt)).pow.boot = none) ∧
    ((converting .temp).conv.busy = some (.temp, 200) ∧ (0 < 1 ∧ 4094 < 4095) ∧ 4095 ≤ 4095) := by
  decide

/-- A state whose DONE notice waits and whose first lane is as given. -/
def driving (l : Lane) : State :=
  { base with eng := engineWith [] (some l), link := { Link.reset with out := [.waiting .done] } }

theorem wit_LaneEndsOrStops :
    (∀ l ∈ [{ lane1 with phase := 1 }, { lane1 with state := .stopping }],
      (driving l).eng.boundary = some 100 ∧ (driving l).eng.lanes = [] ++ some l :: List.replicate 15 none ∧
      (∀ x ∈ [] ++ List.replicate 15 none, x = (none : Option Lane)) ∧
      (l.state = .stopping ∨ (l.state = .driving ∧ l.phase = l.total)) ∧ l.dropped = false ∧
      (driving l).img.held = [] ∧ (driving l).img.stall = none ∧ (driving l).eng.queue = [] ∧
      (driving l).sup.waiting = [] ∧ (driving l).noticeWaits .done = true ∧ (driving l).eng.completions.length < 47 ∧
      (driving l).light.claim ≤ (driving l).light.grant) ∧
    base.img.tiles[0]? = some Tile.reset ∧ lane1.tiles.holds 0 = true ∧ lane1.tiles.holds 1 = false ∧
    ({ Tile.reset with residue := 255 } : Tile).residue ≤ 255 := by
  decide

theorem wit_FrameGivesNextPhase :
    (driving lane1).eng.boundary = some 100 ∧ some lane1 ∈ (driving lane1).eng.lanes ∧ lane1.state ≠ .stopping ∧
    lane1.phase ≠ lane1.total ∧ (driving lane1).eng.lanes.filterMap id = [lane1] := by
  decide

/-- A state with a queue, a waveform and a fresh reading. -/
def queued (e : QEntry) : State := { warm .installed with eng := engineWith [e] none }

theorem wit_LookRules :
    (∃ e ∈ (queued { entry1 with pick := some pick1 }).eng.queue, e.pick ≠ none) ∧ base.eng.queue = [] ∧
    ((queued entry1).eng.queue ≠ [] ∧ (∀ e ∈ (queued entry1).eng.queue, e.pick = none) ∧
      ({ queued entry1 with now := 60000000 } : State).fresh? = false) ∧
    ((queued entry1).fresh? = true ∧ (queued entry1).firstEligible [] (queued entry1).eng.queue = some entry1 ∧
      ∃ p, ({ queued entry1 with sup := { Supply.reset with limit := 16 } } : State).pickOf entry1 = .claims p) := by
  refine ⟨by decide, rfl, by decide, by decide, by decide, ?_⟩
  exact ⟨{ pick1 with tilePart := 1 }, by decide⟩

theorem wit_PickDecidesAndLaneStarts :
    (let s := queued entry1
     s.wav.band = some 0 ∧ (false = true ↔ entry1.noPromote = false ∧ ∃ k t, s.img.tiles[k]? = some t ∧
       entry1.tiles.holds k = true ∧ (t.unsure = true ∨ s.settingNat .residueLimit ≤ t.residue)) ∧
     base.wav.band = none ∧ s.slot .tone 0 = some (wave1 .installed) ∧ (warm .retired).slot .tone 0 = none ∧
     15 < (1 * (wave1 .installed).current + 999) / 1000 + s.settingNat .panelBaseMa ∧
     (1 * (wave1 .installed).current + 999) / 1000 + s.settingNat .panelBaseMa ≤ 16) ∧
    (let s := queued { entry1 with noPromote := false }
     (true = true ↔ ({ entry1 with noPromote := false } : QEntry).noPromote = false ∧ ∃ k t, s.img.tiles[k]? = some t ∧
       entry1.tiles.holds k = true ∧ (t.unsure = true ∨ s.settingNat .residueLimit ≤ t.residue))) ∧
    (let e := { entry1 with pick := some pick1 }
     (queued e).claimingEntry = some e ∧ e.pick = some pick1 ∧ (queued e).eng.lanes[0]? = some none) := by
  refine ⟨⟨rfl, ?_, rfl, by decide, by decide, by decide, by decide⟩, ?_, by decide⟩
  · exact ⟨fun h => absurd h (by decide), fun h => absurd h.1 (by decide)⟩
  · exact ⟨fun _ => ⟨rfl, 0, Tile.reset, rfl, by decide, .inl rfl⟩, fun _ => rfl⟩

/-- A channel that is ARMED with two MISSING chunks. -/
def armed0 : State := channelIn .armed (chunkIn .missing 0) (chunkIn .missing 0)

theorem wit_CreditsGoRound : armed0.creditTaker = some 0 ∧ armed0.pool.length = 240 := by decide +kernel

/-- A FETCH_OPEN body: channel, 4 KiB chunks, window 64, 4,097 bytes at a base, mark 2. -/
def openBody (c : Byte) (at_ : Nat) : List Byte := [c, 4, 64] ++ le32 4097 ++ le32 at_ ++ le16 2

theorem wit_FetchOpenLoadsManifest :
    3 < byteAt (openBody 4 1048576) 0 ∧ (byteAt (openBody 0 1048576) 0 ≤ 3 ∧ (armed0.channel 0).state ≠ .closed) ∧
    (base.channel 3).state = .closed ∧ (armed0.channel 1).state = .closed ∧
    (∀ at_ ∈ [917504, 1048576],
      let b := openBody 3 at_
      byteAt b 0 ≤ 3 ∧ 1 ≤ nat32At b 3 ∧ nat32At b 3 ≤ 268435456 ∧ byteAt b 1 ∈ [4, 8, 16, 32, 64] ∧
        nat32At b 7 % 131072 = 0 ∧ (nat32At b 3 + byteAt b 1 * 1024 - 1) / (byteAt b 1 * 1024) = 2 ∧ 1 ≤ byteAt b 2 ∧
        byteAt b 2 ≤ 64 ∧ nat16At b 11 ≤ 2 ∧ nat32At b 7 + nat32At b 3 ≤ 536870912) ∧
    ¬ nat32At (openBody 3 1048577) 7 % 131072 = 0 ∧ nat32At (openBody 3 917504) 7 / 131072 < 8 ∧
    8 ≤ nat32At (openBody 3 1048576) 7 / 131072 ∧
    (armed0.fetch.channels.filterMap (fun ch => ch.manifest)).map (fun q => (q.base / 131072, (q.base + q.length - 1) / 131072))
      = [(8, 8)] ∧
    (∀ ch ∈ base.fetch.channels, ch.state = .closed) := by
  decide

/-- A channel that is LOADING, with its sums as given. -/
def loading0 (sum : Option Word32) : State :=
  { base with fetch := { Fetch.reset with channels :=
    [{ Channel.reset with state := .loading, manifest := some (man sum) }, .reset, .reset, .reset] } }

theorem wit_FetchSumsThenArm :
    3 < byteAt [4, 0, 0] 0 ∧ (base.channel 3).state ≠ .loading ∧
    ((loading0 none).channel 0).manifest = some (man none) ∧ ((loading0 none).channel 0).state = .loading ∧
    words32 ([0, 0, 0] : List Byte).tail.tail.tail = [] ∧ 1024 < (List.replicate 1025 (0 : Word32)).length ∧
    (man none).count < nat16At [0, 2, 0] 1 + 1 ∧ nat16At [0, 1, 0] 1 + 1 ≤ (man none).count ∧
    ((loading0 none).channel 0).allLoaded = false ∧ ((loading0 (some 0)).channel 0).allLoaded = true := by
  decide +kernel

theorem wit_FetchCloseAndStatus :
    (base.channel 0).state = .closed ∧
    ((channelIn .closing (chunkIn .missing 0) (chunkIn .missing 0)).channel 0).state = .closing ∧
    ((loading0 none).channel 0).state = .loading ∧
    ((channelIn .finished (chunkIn .stored 0) (chunkIn .stored 0)).channel 0).state = .finished ∧
    ((channelIn .failed (chunkIn .bad 3) (chunkIn .stored 0)).channel 0).state = .failed ∧
    ((armed0.channel 0).state = .armed ∧ 0 < armed0.fetch.channels.length ∧ armed0.inReception 0 = false ∧
      armed0.ownInFlight 0 = false) ∧
    ({ armed0 with fetch := { armed0.fetch with reception := some { channel := 0, index := 0, length := 1 } } } :
      State).inReception 0 = true ∧
    3 < byteAt [4] 0 ∧ byteAt [3] 0 ≤ 3 ∧ base.pool.length = 240 := by
  decide +kernel

/-- A chunk header for channel 0 with its CRC-16. -/
def header (i len : Nat) : List Byte := [0] ++ le16 i ++ le32 len ++ crc16Bytes ([0] ++ le16 i ++ le32 len)

/-- Channel 0 ARMED, its first chunk in a state, with one credit. -/
def credited (st : ChunkState) : State :=
  { channelIn .armed (chunkIn st 0) (chunkIn .missing 0) with pool := [.credit 0, .free] }

theorem wit_ChunkHeaderChecks :
    (base.pow.state.awake = true ∧ base.fetch.reception = none) ∧ (inState .sleep base).pow.state.awake = false ∧
    ({ Fetch.reset with reception := some { channel := 0, index := 0, length := 1 } } : Fetch).reception ≠ none ∧
    crc16 ((header 0 4096).take 7) = BitVec.ofNat 16 (nat16At (header 0 4096) 7) ∧ (base.channel 0).state ≠ .armed ∧
    armed0.credits 0 = 0 ∧
    ((credited .missing).credits 0 ≠ 0 ∧ ((credited .missing).channel 0).inWindow 2 = false ∧
      ((credited .missing).channel 0).inWindow 1 = true) ∧
    (∀ st ∈ [ChunkState.staged, .writing, .stored, .missing, .bad],
      ((((credited st).channel 0).chunk 0).state = st ∧ ((credited st).channel 0).inWindow 0 = true)) ∧
    nat32At (header 0 1) 3 ≠ ((credited .bad).channel 0).expected 0 ∧
    nat32At (header 0 4096) 3 = ((credited .missing).channel 0).expected 0 ∧
    nat32At (header 1 1) 3 = ((credited .missing).channel 0).expected 1 := by
  decide +kernel

theorem wit_ChunkFrameEnds :
    (let f : Reception := { channel := 0, index := 0, length := 1 }
     let s : State := { channelIn .armed (chunkIn .missing 0) (chunkIn .missing 0) with
       fetch := { armed0.fetch with reception := some f } }
     s.fetch.reception = some f ∧ (s.channel 0).state = .armed ∧ ¬ f.length ≤ ([] : List Byte).length ∧
     some (crc32 [7]) ≠ (s.channel 0).sumOf 0) ∧
    (let m := man (some (crc32 [7]))
     ({ Channel.reset with state := .armed, manifest := some m } : Channel).sumOf 0 = some (crc32 ([7].take 1))) ∧
    (base.channel 0).state ≠ .armed ∧
    (let ch (n : Nat) (l : List Nat) : Channel := { Channel.reset with chunks := [chunkIn .missing n], refetch := l }
     2 ≤ ((ch 2 []).chunk 0).bad ∧ (((ch 1 [0]).chunk 0).bad < 2 ∧ 0 ∈ (ch 1 [0]).refetch) ∧
     (0 ∉ (ch 1 (List.replicate 16 5)).refetch ∧ 16 ≤ (ch 1 (List.replicate 16 5)).refetch.length) ∧
     (0 ∉ (ch 1 (List.replicate 15 5)).refetch ∧ (ch 1 (List.replicate 15 5)).refetch.length < 16)) := by
  decide

theorem wit_RadioReadsChangeNothing : base.pow.state.awake = true ∧ (inState .sleep base).pow.state.awake = false := by decide

theorem wit_ProgramAndsEraseSets :
    memWf ([(5, 1)] : Memory) = true ∧ 0 < ([0xF0] : List Byte).length ∧ 4 < 5 ∧ 5 + 1 ≤ 6 := by decide

theorem wit_StoreRequestsJoinQueue :
    (¬ (1 ≤ nat16At (le32 0 ++ le16 0) 4) ∧ ¬ (nat32At (le32 536870912 ++ le16 1) 0 + 1 ≤ 536870912)) ∧
    (1 ≤ 4096 ∧ nat32At (le32 536866816 ++ le16 4096) 0 + nat16At (le32 536866816 ++ le16 4096) 4 ≤ 536870912) ∧
    (flashIn .offline none).store.flash = .offline ∧ base.store.flash ≠ .offline ∧
    ¬ 1 ≤ (le32 0 ++ [] : List Byte).tail.tail.tail.tail.length ∧ 4095 / 4096 ≠ (4095 + 2 - 1) / 4096 ∧
    (base.store.bootProtected = true ∧ nat32At (le32 1048575 ++ [1]) 0 < 1048576 ∧ 1048576 ≤ nat32At (le32 1048576 ++ [1]) 0) ∧
    (armed0.sectorInUse (1048576 / 131072) = true ∧ armed0.sectorInUse 9 = false) ∧
    4095 < nat16At (le16 4096) 0 ∧ nat16At (le16 4095) 0 ≤ 4095 ∧ nat16At (le16 7) 0 < 8 ∧ 8 ≤ nat16At (le16 8) 0 := by
  decide

/-- A read of the host. -/
def read5 : Op := op (.host (req .storeRead [])) (.read 0 4) 5

/-- An erase of sector 8 of the host, older than the read. -/
def erase4 : Op := op (.host (req .storeErase [])) (.erase 8) 4

theorem wit_StoreQueueOrder :
    (flashIn .claiming (some read5)).store.flash = .claiming ∧
    (let s : State := { base with store := { Store.reset with queue := [erase4, read5] } }
     s.selected = some read5 ∧ (∃ p ∈ s.store.queue, s.servable p = true)) ∧
    (let s : State := { base with store := { Store.reset with queue := [erase4] } }
     s.selected = some erase4 ∧ (∀ p ∈ s.store.queue, s.servable p = false)) := by
  decide

theorem wit_FlashReportsEndOk :
    (let s := flashIn .running (some (op (.host (req .storeRead [])) (.read 0 4) 0))
     s.store.flash = .running ∧ s.store.op = some { source := .host (req .storeRead []), kind := .read 0 4, arrival := 0 }) ∧
    (let s := flashIn .running (some (op (.host (req .storeProgram [])) (.program 0 [7]) 0))
     s.store.op = some { source := .host (req .storeProgram []), kind := .program 0 [7], arrival := 0 } ∧
       s.store.page = 0 ∧ ([7] : List Byte).length ≤ 4096 ∧
       (op (.host (req .storeProgram [])) (.program 0 [7]) 0).isRead = false) ∧
    (flashIn .running (some erase4)).store.op = some { source := .host (req .storeErase []), kind := .erase 8, arrival := 4 } ∧
    (flashIn .running (some (op .boot (.read 0 10) 0))).store.op = some { source := .boot, kind := .read 0 10, arrival := 0 } ∧
    (let s := flashIn .running (some (op .fetch (.program 0 (List.replicate 4097 0)) 0))
     (s.store.page + 1) * 4096 < (List.replicate 4097 (0 : Byte)).length ∧ s.store.cut = false) ∧
    (flashIn .running (some (op .fetch (.erase 8) 0))).store.op = some { source := .fetch, kind := .erase 8, arrival := 0 } := by
  decide +kernel

theorem wit_OverrunResetsFlash :
    ((flashIn .running (some erase4)).store.flash = .running ∧ (flashIn .running (some erase4)).store.op = some erase4 ∧
      erase4.source = .host (req .storeErase [])) ∧
    (flashIn .suspending (some erase4)).store.flash = .suspending ∧
    (let s := flashIn .resetting none
     s.store.flash = .resetting ∧ s.store.op = none ∧ s.store.queue = [] ∧ s.fetch.slot = none ∧
       ∀ c ∈ s.fetch.channels, c.state ≠ .armed) := by
  decide

/-- No channel is ARMED at reset, whatever its number. -/
theorem wit_no_channel_armed (c : Nat) : (base.channel c).state ≠ .armed := by
  match c with
  | 0 => decide
  | 1 => decide
  | 2 => decide
  | 3 => decide
  | _ + 4 => exact (by decide : (ChanState.closed ≠ .armed))

/-- An erase at the flash with a read waiting. -/
def erasing (f : FlashState) (n : Nat) : State :=
  { base with store := { Store.reset with flash := f, op := some erase4, queue := [read5], suspends := n } }

theorem wit_EraseSuspends :
    ((erasing .running 15).store.flash = .running ∧ (erasing .running 15).store.op = some { erase4 with arrival := 4 } ∧
      (∃ p ∈ (erasing .running 15).store.queue, (erasing .running 15).servable p = true) ∧
      (erasing .running 15).store.suspends < (erasing .running 15).settingNat .suspendLimit) ∧
    (erasing .running 16).settingNat .suspendLimit ≤ (erasing .running 16).store.suspends ∧
    ((erasing .suspending 1).store.flash = .suspending ∧ read5 ∈ (erasing .suspending 1).store.queue ∧
      (erasing .suspending 1).servable read5 = true) ∧
    (let s : State := { erasing .suspending 1 with store := { (erasing .suspending 1).store with queue := [] } }
     s.store.flash = .suspending ∧ ∀ p ∈ s.store.queue, s.servable p = false) := by
  decide

theorem wit_DozeAndWake :
    (asks base .doze []).taken .doze = some (req .doze []) ∧ base.pow.state = .active ∧
    (asks (inState .doze base) .doze []).taken .doze = some (req .doze []) ∧
    (asks (inState .draining base) .doze []).taken .doze = some (req .doze []) ∧
    (asks base .wake []).taken .wake = some (req .wake []) ∧
    (asks (inState .doze base) .wake []).taken .wake = some (req .wake []) ∧
    (asks (inState .draining base) .wake []).taken .wake = some (req .wake []) := by
  decide

theorem wit_SleepBeginsDrain :
    ¬ (nat32At (le32 86401 ++ [0]) 0 ≤ 86400 ∧ byteAt (le32 86401 ++ [0]) 4 ≤ 1) ∧
    (nat32At (le32 86400 ++ [1]) 0 ≤ 86400 ∧ byteAt (le32 86400 ++ [1]) 4 ≤ 1) ∧
    (asks (inState .draining base) .sleep (le32 86400 ++ [1])).taken .sleep = some (req .sleep (le32 86400 ++ [1])) ∧
    (asks (inState .doze base) .sleep (le32 86400 ++ [1])).taken .sleep = some (req .sleep (le32 86400 ++ [1])) := by
  decide

theorem wit_SleepIsEntered :
    (let s : State := { base with pow := { base.pow with state := .draining, prior := some .doze, drain := some 9 } }
     s.pow.drain = some 9 ∧ s.pow.state = .draining ∧ s.pow.prior = some .doze) ∧
    (let s : State := { base with pow := { base.pow with state := .doze, resleep := some 9 } }
     s.pow.resleep = some 9 ∧ s.pow.state = .doze ∧ s.drained = true) ∧
    (base.pow.radioAttn = false ∧ base.store.flash = .idle ∧ (flashIn .offline none).store.flash = .offline ∧
      ({ Power.reset with order := some (86400, true) } : Power).order = some (86400, true)) := by
  decide

/-- The part asleep, with a wake under way or not. -/
def asleep (exit : Timer) (waking : List WakeSource) : State :=
  { base with pow := { base.pow with state := .sleep, exit := exit, waking := waking, wakeTimer := some 5 },
              store := { Store.reset with flash := .lowPower } }

theorem wit_WakeSourcesBeginWake :
    ((asleep none []).pow.state = .sleep ∧ (asleep none []).pow.exit = none ∧ (asleep none []).pow.wakeTimer = some 5 ∧
      (asleep none []).pow.radioAttn = false) ∧
    ((asleep (some 9) [.radio]).pow.exit ≠ none ∧ (asleep (some 9) [.radio]).pow.waking ≠ [] ∧
      .host ∉ (asleep (some 9) [.radio]).pow.waking) ∧
    base.pow.state ≠ .sleep := by
  decide

theorem wit_ExitEndWakes :
    (let s := asleep (some 9) [.radio]
     s.pow.exit = some 9 ∧ s.pow.state = .sleep ∧ s.pow.waking = [.radio] ∧ s.pow.resetWaits = false ∧
       s.fetch.slot = none ∧ s.store.queue = [] ∧ s.conv.busy = none ∧ s.conv.last = .amb ∧ s.store.flash = .lowPower ∧
       ∀ c ∈ s.fetch.channels, c.state ≠ .armed) := by
  decide

theorem wit_WarmResetKeepsAndDrops :
    (base.pow.resetLow = false ∧ base.pow.state.awake = true ∧ base.store.flash = .idle ∧ base.store.op = none) ∧
    ({ Power.reset with resetLow := true } : Power).resetLow = true ∧ (inState .starting base).pow.state = .starting ∧
    ((asleep none []).pow.resetLow = false ∧ (asleep none []).pow.state = .sleep ∧ (asleep none []).pow.exit = none) := by
  decide

theorem wit_SettingsStored :
    settingOfNumber (byteAt [0, 0, 0, 0, 0] 0) = none ∧ settingOfNumber (byteAt [39] 0) = none ∧
    settingOfNumber (byteAt [1, 0, 0, 0, 0] 0) = some .framePeriodUs ∧
    settingOfNumber (byteAt [38] 0) = some .resleepMs ∧ base.settings.length = 38 ∧
    base.setting .tempIntervalS ≤ base.setting .tempMaxAgeS ∧ base.setting .tempLowDd ≤ base.setting .tempHighDd := by
  decide

/-- A packet of a kind with an empty body, without its first byte. -/
def wire (kind : Byte) : List Byte := [kind, 7, 0, 0] ++ crc16Bytes [kind, 7, 0, 0]

theorem wit_WriteTransferAccepts :
    (base.pow.state ≠ .starting ∧ base.pow.resetLow = false ∧ base.ready = true ∧ base.pow.state = .active) ∧
    ¬ 4 ≤ ([1, 2, 3] : List Byte).length ∧
    (4 ≤ (wire 0x41).length ∧ nat16At (wire 0x41) 2 ≤ 4160 ∧ nat16At (wire 0x41) 2 + 6 ≤ (wire 0x41).length) ∧
    crc16 ((wire 0x41).take 4) = BitVec.ofNat 16 (nat16At (wire 0x41) 4) ∧
    crc16 ([0x41, 8, 0, 0].take 4) ≠ BitVec.ofNat 16 (nat16At (wire 0x41) 4) ∧
    (inState .sleep base).ready = false ∧ reqKindOf (byteAt (wire 0xEE) 0) = none ∧
    (reqKindOf ReqKind.doze.code = some .doze ∧ ReqKind.doze.lengthOk 0 = true ∧ ReqKind.doze.lengthOk 1 = false) := by
  decide +kernel

theorem wit_ReadyAndAttnLines :
    base.ready = true ∧ (inState .starting base).pow.state = .starting ∧ base.pow.state = .active ∧
    (inState .doze base).pow.state = .doze ∧ NoticeKind.done ≠ .power ∧ NoticeKind.done ≠ .key := by
  decide

/-- A state with an outbound queue. -/
def sending (out : List OutItem) (rd : Reading) : State :=
  { base with link := { Link.reset with out := out, reading := rd, opened := 1 } }

/-- A response. -/
def resp1 : Response := { kindByte := 1, tag := 7, code := .ok, body := [] }

theorem wit_ReadsDeliverHead :
    (base.pow.state.awake = true ∧ base.pow.resetLow = false ∧ base.link.out = []) ∧
    (sending [.response resp1] .nothing).link.out = .response resp1 :: [] ∧
    (sending [.waiting .key, .waiting .done] .nothing).link.out = .waiting .key :: [.waiting .done] ∧
    (sending [.built .key [1]] .nothing).link.out = .built .key [1] :: [] ∧
    ((sending [.response resp1] .head).link.reading = .head) ∧ base.link.reading = .nothing ∧
    (sending [] .empty).link.reading = .empty ∧ base.pow.state ≠ .starting := by
  decide

theorem wit_NoticesMergeAndModerate :
    base.link.merged.length = 9 ∧ (OutItem.waiting .key) ∈ (sending [.waiting .key] .nothing).link.out ∧
    (OutItem.waiting .key) ∉ base.link.out ∧ base.noticeWaits .done = false ∧
    (let s : State := { base with link := { Link.reset with doneMod := { count := 3, settle := some 5, absolute := some 6 } } }
     s.countSetting .done ≤ (s.moderation .done).count + 1 ∧ (s.moderation .done).settle = some 5 ∧
       (s.moderation .done).absolute = some 6 ∧ (s.moderation .done).count ≠ 0) ∧
    (let s : State := { base with link := { Link.reset with doneMod := { count := 2, settle := some 5, absolute := some 6 } } }
     (s.moderation .done).count + 1 < s.countSetting .done ∧ s.settleSetting .done ≠ 0 ∧ 0 < (s.moderation .done).count) := by
  decide

/-- A state whose keys are as given. -/
def keyed (k : KeyScan) : State := { base with keys := { Scanner.reset with fwd := k, back := k, light := k, power := k } }

theorem wit_KeyEdgesAndDebounce :
    (base.keys.key .fwd).pressed = false ∧ base.pow.state ≠ .starting ∧ (inState .starting base).pow.state = .starting ∧
    ((turnBase (page 0 false) false).turnMiss .forward = none ∧ base.turnMiss .back = some .empty) ∧
    (∀ k ∈ [Key.fwd, .back, .light, .power],
      ((keyed { KeyScan.reset with debounce := some 5 }).keys.key k).debounce = some 5 ∧
      ((keyed { KeyScan.reset with debounce := some 5 }).keys.key k).pressed =
        ((keyed { KeyScan.reset with debounce := some 5 }).keys.key k).down ∧
      ((keyed { KeyScan.reset with debounce := some 5, pressed := true }).keys.key k).pressed = true ∧
      ((keyed { KeyScan.reset with debounce := some 5, down := true }).keys.key k).down = true) ∧
    base.turnsEnabled = true ∧ base.toggleEnabled = true ∧
    (after .set (asks base .set [11, 2, 0, 0, 0])).turnsEnabled = false := by
  decide

theorem wit_LongPressAndRun :
    (let s := keyed { KeyScan.reset with down := true, pressed := true, state := .down, long := some 5 }
     (s.keys.key .fwd).long = some 5 ∧ (s.keys.key .fwd).state = .down ∧ s.pow.state ≠ .sleep ∧ s.turnsEnabled = true) ∧
    (let r := { KeyScan.reset with down := true, state := .held, run := some { timer := some 5, turns := 1 }, last := some 0 }
     ((keyed r).keys.key .fwd).run = some { timer := some 5, turns := 1 } ∧ keyDir .fwd = some .forward ∧
     ({ keyed r with eng := engineWith [] (some lane1) } : State).lastLives .fwd = true ∧
     (keyed r).lastLives .fwd = false ∧ (keyed r).turnMiss .forward ≠ none ∧
     ({ turnBase (page 0 false) false with keys := (keyed r).keys } : State).turnMiss .forward = none) := by
  decide

/-! ## The first bytes of a transfer, and the boot walk -/

/-- R163, R176: the first byte picks the command on each port. -/
theorem test_port_bytes : linkCommand [0x01, 9] = some (.writeTransfer [9]) ∧ linkCommand [0x02] = some .readTransfer ∧
    linkCommand [0x03] = some .unknownTransfer ∧ radioCommand [0x11] = some .statusRead ∧
    radioCommand [0x12, 3] = some (.refetchRead 3) ∧ radioCommand [0x12] = none ∧ radioCommand [0x10] = none ∧
    radioCommand (0x13 :: List.replicate 8 0) = none ∧
    radioCommand (0x13 :: List.replicate 10 0) = some (.chunkHeader (List.replicate 9 0)) := by decide

/-- A part in start-up whose boot read is as given. -/
def booting (b : Boot) : State := { inState .starting base with pow := { Power.reset with boot := some b } }

/-- A boot read with its header read and these entry bytes. -/
def boot1 (es : List Byte) (image : Option BootImage) : Boot :=
  { headerRead := true, length := es.length, sum := crc32 es, entries := es, at_ := 0, image := image, skipped := 0,
    badImage := false, failing := false }

/-- R160: an entry of an unknown kind is skipped, and END ends the walk: the part starts LOADED with one entry skipped. -/
theorem test_boot_walk :
    (bootReadDone [] (booting (boot1 [7, 1, 0, 9, 0, 0, 0] none))).pow.state = .active ∧
    (bootReadDone [] (booting (boot1 [7, 1, 0, 9, 0, 0, 0] none))).pow.outcome = .loaded ∧
    (bootReadDone [] (booting (boot1 [7, 1, 0, 9, 0, 0, 0] none))).pow.skipped = 1 := by decide +kernel

/-- One record of one phase for TONE at band 0 (12.6). -/
def record1 : List Byte := [1, 0, 1, 28] ++ le32 (crc32 (List.replicate 64 0)).toNat ++ List.replicate 64 0

/-- R160: a good record is installed before the next one is judged; a bad one ends the image, and the part starts PARTIAL. -/
theorem test_boot_image :
    (let t := bootReadDone (record1 ++ [9, 0, 1, 28, 0, 0, 0, 0])
       (booting (boot1 [0, 0, 0] (some { next := 100, left := 0, got := [] })))
     t.wav.waves.length = 1 ∧ t.pow.outcome = .partly ∧ t.pow.state = .active) := by decide +kernel

/-! ## Clauses that the statements' parts add -/

/-- The entry is eligible at the head of the queue. -/
theorem wit_mayPick (st : WaveState) : mayPick { warm st with eng := engineWith [entry1] none } [] entry1 := by
  refine ⟨⟨none, by simp [engineWith], rfl⟩, ?_, fun _ h => (by cases h), fun _ h => (by cases h),
    ⟨by cases st <;> decide, rfl⟩, fun a ha => ?_⟩
  · intro k t hk _
    match k with
    | 0 => cases hk; rfl
    | _ + 1 => cases hk
  · rw [List.mem_singleton.1 ha]; rfl

theorem wit_LookRules_picks :
    (queued entry1).eng.queue = [] ++ entry1 :: [] ∧
    (∀ pre a post, ([] : List QEntry) = pre ++ a :: post → ¬ mayPick (queued entry1) pre a) ∧
    ({ queued entry1 with sup := { Supply.reset with limit := 16 } } : State).pickOf entry1
      = .claims { pick1 with tilePart := 1 } ∧
    ({ queued entry1 with sup := { Supply.reset with limit := 15 } } : State).pickOf entry1 = .lowSupply .tone false ∧
    ({ warm .retired with eng := engineWith [entry1] none } : State).pickOf entry1 = .noWaveform .tone false := by
  refine ⟨rfl, fun pre a post h => ?_, by decide, by decide, by decide⟩
  cases pre <;> cases h

/-- An owned tile holds the only entry back. -/
theorem wit_LookRules_none :
    let s : State := { queued entry1 with img := { base.img with tiles := [{ Tile.reset with owner := some 0 }] } }
    s.fresh? = true ∧ (∀ a ∈ s.eng.queue, a.pick = none) ∧
      ∀ ahead e behind, s.eng.queue = ahead ++ e :: behind → ¬ mayPick s ahead e := by
  refine ⟨by decide, by decide, ?_⟩
  intro ahead e behind h hm
  match ahead, h with
  | [], h =>
    cases h
    exact absurd (hm.2.1 0 { Tile.reset with owner := some 0 } rfl (by decide)) (by decide)
  | _ :: rest, h => exact absurd (List.cons.inj h).2.symm (by cases rest <;> simp)

/-- Channel 0 with a refetch list and a slot operation. -/
def listing (n : Nat) (refetch : List Nat) (slot : Option SlotOp) : State :=
  { base with fetch := { Fetch.reset with slot := slot, channels :=
    [{ Channel.reset with state := .armed, manifest := some (man (some 0)), chunks := [chunkIn .missing n, chunkIn .missing 0],
                          refetch := refetch }, .reset, .reset, .reset] } }

theorem wit_ChunkFrameEnds_bad :
    2 ≤ (((listing 2 [] none).channel 0).chunk 0).bad ∧
    ((((listing 1 [0] none).channel 0).chunk 0).bad < 2 ∧ 0 ∈ ((listing 1 [0] none).channel 0).refetch) ∧
    (0 ∉ ((listing 1 (List.replicate 16 5) none).channel 0).refetch ∧
      16 ≤ ((listing 1 (List.replicate 16 5) none).channel 0).refetch.length) ∧
    (0 ∉ ((listing 1 (List.replicate 15 5) none).channel 0).refetch ∧
      ((listing 1 (List.replicate 15 5) none).channel 0).refetch.length < 16) := by decide

/-- A slot operation of channel 0. -/
def slot0 (chunk : Option Nat) (ignored : Bool) : SlotOp := { channel := 0, chunk := chunk, ignored := ignored }

/-- A fetch program in the store's queue. -/
def fetchOp : Op := op .fetch (.program 1048576 [1]) 6

theorem wit_ChunkFrameEnds_failure :
    (∀ o, base.fetch.slot = some o → o.channel ≠ 0 ∨ o.ignored = true) ∧
    (listing 0 [] (some (slot0 none false))).fetch.slot = some (slot0 none false) ∧ (slot0 none false).ignored = false ∧
    (let s := listing 0 [] (some (slot0 (some 0) false))
     let q : State := { s with store := { Store.reset with queue := [fetchOp] } }
     let c : State := { s with store := { Store.reset with flash := .claiming, op := some fetchOp } }
     let r : State := { s with store := { Store.reset with flash := .running, op := some fetchOp } }
     (slot0 (some 0) false).chunk = some 0 ∧ (∃ p ∈ q.store.queue, p.source = .fetch) ∧
       ((¬ ∃ p ∈ c.store.queue, p.source = .fetch) ∧ c.store.flash = .claiming) ∧
       (¬ ∃ p ∈ r.store.queue, p.source = .fetch) ∧ r.store.flash ≠ .claiming) := by
  refine ⟨fun o h => ?_, rfl, rfl, rfl, ⟨fetchOp, by simp, rfl⟩, ⟨?_, rfl⟩, ?_, by decide⟩
  · cases h
  · rintro ⟨_, h, _⟩; cases h
  · rintro ⟨_, h, _⟩; cases h

/-- A state with a moderation record and a setting. -/
def moderated (m : Moderation) (n : Nat) (v : Nat) : State :=
  { after .set (asks base .set (byteOf n :: le32 v)) with link := { Link.reset with doneMod := m } }

theorem wit_NoticesMergeAndModerate_cycle :
    (let s := moderated { count := 0, settle := none, absolute := none } 1 1
     s.noticeWaits .done = false ∧ (s.moderation .done).count = 0 ∧
       ¬ (s.countSetting .done ≤ 0 + 1 ∨ s.settleSetting .done = 0 ∨ (0 = 0 ∧ s.absoluteSetting .done = 0))) ∧
    (base.moderation .done).settle = none ∧ (base.moderation .done).absolute = none ∧
    (let s := moderated { count := 0, settle := some 5, absolute := some 6 } 1 1
     (s.moderation .done).settle = some 5 ∧ (s.moderation .done).absolute = some 6 ∧ (s.moderation .done).count = 0) ∧
    (let s := moderated { count := 0, settle := none, absolute := none } (settingRow .doneAbsoluteMs).number 0
     (s.moderation .done).count = 0 ∧ s.absoluteSetting .done = 0 ∧ 0 + 1 < s.countSetting .done) ∧
    (moderated { count := 0, settle := none, absolute := none } (settingRow .doneSettleMs).number 0).settleSetting .done = 0 := by
  decide

theorem wit_FlashReportsEndOk_pages :
    (let s := flashIn .running (some (op .fetch (.program 0 (List.replicate 4097 0)) 0))
     let t : State := { s with store := { s.store with page := 1 } }
     let u : State := { s with store := { s.store with cut := true } }
     (List.replicate 4097 (0 : Byte)).length ≤ (t.store.page + 1) * 4096 ∧ u.store.cut = true) ∧
    ((flashIn .suspending (some erase4)).store.flash = .suspending ∧ (flashIn .suspending (some erase4)).store.op = some erase4) ∧
    (let s : State := { flashIn .suspended (some erase4) with store := { Store.reset with
       flash := .suspended, op := some erase4, batch := [read5, read5] } }
     s.store.batch = { source := .host (req .storeRead []), kind := .read 0 4, arrival := 5 } :: [read5] ∧ [read5] ≠ []) := by
  decide +kernel

theorem wit_OverrunResetsFlash_boot :
    (let s : State := { booting (boot1 [] none) with store := (flashIn .running (some (op .boot (.read 0 10) 0))).store }
     s.store.flash = .running ∧ s.store.grant = none ∧
       s.store.op = some { source := .boot, kind := .read 0 10, arrival := 0 } ∧ s.pow.boot = some (boot1 [] none)) ∧
    (let s : State := { booting { boot1 [] none with failing := true } with store := (flashIn .resetting none).store }
     s.store.flash = .resetting ∧ s.store.op = none ∧ s.pow.boot = some { boot1 [] none with failing := true } ∧
       s.store.queue = [] ∧ s.fetch.slot = none ∧ ∀ c ∈ s.fetch.channels, c.state ≠ .armed) := by
  decide

/-- Channel 0 ARMED with its first chunk in a state and its erase cursor at a sector. -/
def cursorAt (n : Nat) (st : ChunkState) (slot : Option SlotOp) : State :=
  { base with fetch := { Fetch.reset with slot := slot, channels :=
    [{ Channel.reset with state := .armed, manifest := some (man (some 0)), cursor := n, stored := 1,
                          chunks := [chunkIn st 0, chunkIn .stored 0] }, .reset, .reset, .reset] } }

theorem wit_CreditsGoRound_slot :
    ((cursorAt 9 .staged none).fetch.slot = none ∧ (cursorAt 9 .staged none).fetch.paused = false ∧
      (cursorAt 9 .staged none).pow.state.awake = true ∧ (cursorAt 9 .staged none).store.flash ≠ .offline ∧
      channelsAfter (cursorAt 9 .staged none).fetch.lastGiven = [] ++ 0 :: [1, 2, 3]) ∧
    programReady (cursorAt 9 .staged none) 0 0 ∧ (∀ j < 0, ¬ programReady (cursorAt 9 .staged none) 0 j) ∧
    eraseReady (cursorAt 8 .missing none) 0 ∧ (∀ d < 4, ∀ j, ¬ programReady (cursorAt 8 .missing none) d j) ∧
    (∀ c < 4, (∀ i, ¬ programReady base c i) ∧ ¬ eraseReady base c) := by
  refine ⟨by decide, ⟨rfl, rfl, man (some 0), rfl, by decide, by decide⟩, fun _ h => by omega,
    ⟨rfl, man (some 0), rfl, by decide, fun h => by cases h⟩, ?_, ?_⟩
  · intro d hd j h
    match d, hd with
    | 0, _ =>
      match j with
      | 0 => exact absurd h.2.1 (by decide)
      | 1 => exact absurd h.2.1 (by decide)
      | _ + 2 => exact absurd h.2.1 (by show ¬ ChunkState.missing = .staged; decide)
    | 1, _ => exact absurd h.1 (by decide)
    | 2, _ => exact absurd h.1 (by decide)
    | 3, _ => exact absurd h.1 (by decide)
  · intro c _
    exact ⟨fun i h => wit_no_channel_armed c h.1, fun h => wit_no_channel_armed c h.1⟩

theorem wit_CreditsGoRound_outcome :
    (∀ o ∈ [slot0 none true, slot0 none false, slot0 (some 0) false], (cursorAt 9 .writing (some o)).fetch.slot = some o) ∧
    ((cursorAt 9 .writing none).channel 0).state = .armed ∧ (armed0.channel 1).state ≠ .armed ∧
    ((cursorAt 9 .writing none).channel 0).eraseRetry = false ∧ (((cursorAt 9 .writing none).channel 0).chunk 0).retry = false ∧
    ({ Channel.reset with eraseRetry := true } : Channel).eraseRetry = true ∧
    ({ chunkIn .writing 0 with retry := true } : Chunk).retry = true ∧
    ((cursorAt 9 .writing none).channel 0).manifest = some (man (some 0)) ∧
    ((cursorAt 9 .writing none).channel 0).stored + 1 = (man (some 0)).count ∧
    (armed0.channel 0).stored + 1 ≠ (man (some 0)).count := by
  decide

theorem wit_StoreQueueOrder_join :
    base.store.flash = .idle ∧ (erasing .suspending 0).store.flash ≠ .idle ∧
    (∀ p ∈ [(0, 1), (1, 0)],
      let s : State := { erasing .running 15 with now := (erasing .running 15).settingNat .eraseMinRunUs - p.2 }
      (s.settingNat .eraseMinRunUs ≤ s.now - s.store.since ↔ p.1 = 1) ∧ s.store.suspends < s.settingNat .suspendLimit ∧
        s.store.op = some erase4 ∧ s.servable read5 = true) := by
  decide

theorem wit_StoreQueueOrder_select :
    (let s (n : Nat) : State := { base with
       store := { Store.reset with queue := [erase4] }, sup := { Supply.reset with limit := n } }
     (s 0).selected = some erase4 ∧ (s 0).store.flash = .idle ∧ (s 0).sup.limit < (s 0).settingNat .storeEraseMa ∧
       (s 1000).settingNat .storeEraseMa ≤ (s 1000).sup.limit) ∧
    (let s : State := { base with store := { Store.reset with queue := [fetchOp] } }
     s.selected = some fetchOp ∧ fetchOp.source = .fetch) := by
  decide

/-- The whole panel's last pixel. -/
def last1 : Rect := { x0 := 1599, y0 := 1199, x1 := 1599, y1 := 1199 }

theorem wit_PixelsPackets_planes :
    (∀ f ∈ [0, 1], ∃ b : List Byte, byteAt b 1 = f ∧ base.pixelsCheck b = none) ∧
    (last1.x0 ≤ last1.x1 ∧ last1.y0 ≤ last1.y1 ∧ ([7] : List Nat).length = 1 ∧ 1919999 < 1920000 ∧
      1919999 % 1600 = last1.x1 ∧ 1919999 / 1600 = last1.y1) ∧
    ([] : Plane).Pairwise (fun a b => a.1 < b.1) ∧ ([(0, 1), (1919999, 2)] : Plane).Pairwise (fun a b => a.1 < b.1) := by
  refine ⟨?_, by decide, .nil, by decide⟩
  intro f hf
  rcases List.mem_cons.1 hf with rfl | hf
  · exact ⟨pixelBody 0xFF, by decide, by decide⟩
  · obtain rfl := List.mem_singleton.1 hf
    exact ⟨[0xFF, 1, 0, 0, 0, 0, 0, 0, 0, 0, 0xF0], by decide, by decide⟩

theorem wit_TurnExchangesPages_update :
    (turnBase (page 0 true) false).turnMiss .forward = some .notReady ∧
    ((turnBase (page 0 false) false).turnMiss .forward = none ∧
      (turnBase (page 0 false) false).cache.list .forward = page 0 false :: []) ∧
    base.cache.records.length < 16 ∧
    (let r : TurnRecord := { dir := .forward, miss := none, tag := 0, dropped := none, source := .key, time := 0 }
     16 ≤ ({ PageCache.reset with records := List.replicate 16 r } : PageCache).records.length) ∧
    (let c : PageCache := { PageCache.reset with back := List.replicate 8 (page 1 false) }
     ¬ (c.list Dir.forward.other).length < Dir.forward.other.capacity ∧ (c.list Dir.forward.other).getLast? = some (page 1 false)) := by
  decide

/-- A waiting claim of the store beside a light with a grant. -/
def lit (limit grant : Nat) : State :=
  { claiming .store 10 limit with light := { FrontLight.reset with claim := grant, grant := grant } }

theorem wit_DecisionPassOrder_cut :
    (lit 15 5).sup.waiting = { who := .store, amount := 10 } :: [] ∧
    (lit 15 5).others + 10 + (lit 15 5).light.grant ≤ (lit 15 5).sup.limit ∧
    ((lit 14 5).sup.limit < (lit 14 5).others + 10 + (lit 14 5).light.grant ∧ (lit 14 5).others + 10 ≤ (lit 14 5).sup.limit) ∧
    (lit 14 5).light.grant ≤ (lit 14 5).light.claim ∧ (lit 14 5).light.grant ≤ 5 ∧ 4 < (lit 14 5).light.grant := by
  decide

theorem wit_SupplyLimitTable_steps :
    (let e := { entry1 with pick := some pick1 }
     (queued e).claimingEntry = some e ∧ e.pick = some pick1 ∧ 15 < pick1.tilePart + (queued e).settingNat .panelBaseMa ∧
       ¬ 16 < pick1.tilePart + (queued e).settingNat .panelBaseMa) ∧
    (let s : State := { claiming .store 10 400 with store := (flashIn .claiming (some read5)).store }
     s.store.flash = .claiming ∧ s.store.op = some read5 ∧
       s.sup.waiting.find? (fun c => c.who == .store) = some { who := .store, amount := 10 } ∧ 9 < 10 ∧ ¬ 10 < 10) ∧
    base.claimingEntry = none ∧ base.store.flash ≠ .claiming := by
  decide

/-- A powered converter at rest with its flags and its last served channel. -/
def resting (t b a : Bool) (last : Chan) : Converter :=
  { Converter.reset with temp := t, batt := b, amb := a, busy := none, last := last, powered := true }

theorem wit_ConverterServesOwners_choice :
    ((resting true false true .temp).powered = true ∧ (resting true false true .temp).busy = none ∧
      (resting true false true .temp).amb = true ∧ ¬ (resting true false true .temp).batt = true) ∧
    (resting false false false .temp).temp = false ∧ ({ Converter.reset with powered := false } : Converter).powered = false ∧
    (0 < 1 ∧ 4094 < 4095) ∧ base.wav.band = none ∧ (warm .installed).wav.band = some 0 := by
  decide

theorem wit_FollowTimers_levels :
    (let s (settle : Timer) (arming : Nat) : State := { base with light := { FrontLight.reset with
       follow := true, settle := settle, arming := arming } }
     let h := base.settingNat .followHyst
     (s none 0).light.follow = true ∧ (s none 0).pow.state = .active ∧ (s none 0).light.settle = none ∧
       (s (some 5) 0).light.settle ≠ none ∧
       h < (h + 1 - (s none 0).light.levelTarget) + ((s none 0).light.levelTarget - (h + 1)) ∧
       ¬ h < (h - (s none 0).light.levelTarget) + ((s none 0).light.levelTarget - h) ∧
       h < (h + 1 - (s (some 5) 0).light.arming) + ((s (some 5) 0).light.arming - (h + 1)) ∧
       ¬ h < (h + 1 - (s (some 5) (h + 1)).light.arming) + ((s (some 5) (h + 1)).light.arming - (h + 1))) ∧
    (let p := (10, 1); let q := (20, 2)
     p.1 ≤ 10 ∧ 19 < q.1 ∧ ∀ x ∈ [(9, 0)], x.1 < p.1) := by
  decide

/-- A packet that stalls on the first tile, with packets held. -/
def stalled (held : List HeldPacket) (payload : Nat) : State :=
  { ownedBase held with img := { (ownedBase held).img with stall := some (req .pixels [], { heldOf payload with rect := corner }) } }

theorem wit_LaneEndsOrStops_landing :
    (base.img.stall = none ∧ (stalled [] 1).img.stall = some (req .pixels [], { heldOf 1 with rect := corner })) ∧
    (∃ k t, (stalled [] 1).img.tiles[k]? = some t ∧ ({ heldOf 1 with rect := corner } : HeldPacket).tiles.holds k = true ∧
      t.owner ≠ none) ∧
    (∃ q ∈ [heldOf 1], q.tiles.meets (heldOf 2).tiles = true) ∧
    (¬ (∃ k t, base.img.tiles[k]? = some t ∧ (heldOf 1).tiles.holds k = true ∧ t.owner ≠ none)) ∧
    (65504 + 16) + (0 + 16) ≤ 65536 ∧ ¬ (65505 + 16) + (0 + 16) ≤ 65536 ∧
    lane1.dropped = false ∧ ({ lane1 with dropped := true } : Lane).dropped = true := by
  refine ⟨⟨rfl, rfl⟩, ⟨0, { Tile.reset with owner := some 0 }, rfl, by decide, by decide⟩, ⟨_, List.mem_singleton.2 rfl, by decide⟩,
    ?_, by decide, by decide, rfl, rfl⟩
  rintro ⟨k, t, hk, _, ho⟩
  match k with
  | 0 => cases hk; exact ho rfl
  | _ + 1 => cases hk

theorem wit_ExitEndWakes_any :
    ((asleep (some 9) [.fwd, .host]).pow.exit = some 9 ∧ (asleep (some 9) [.fwd, .host]).pow.waking ≠ [] ∧
      (asleep (some 9) [.fwd, .host]).pow.resetWaits = false ∧ WakeSource.host ∈ (asleep (some 9) [.fwd, .host]).pow.waking ∧
      WakeSource.host ∉ (asleep (some 9) [.timer]).pow.waking) ∧
    (keyDir .fwd = some .forward ∧ base.turnsEnabled = true ∧ base.toggleEnabled = true ∧
      (after .set (asks base .set [11, 0, 0, 0, 0])).turnsEnabled = false ∧
      (after .set (asks base .set [11, 0, 0, 0, 0])).toggleEnabled = false) ∧
    ((turnBase (page 0 false) false).turnMiss .forward = none ∧ base.turnMiss .forward ≠ none ∧
      (base.keys.key .fwd).state = .up ∧ ((keyed { KeyScan.reset with state := .down }).keys.key .fwd).state ≠ .up) ∧
    base.light.drainLevel = none ∧ ({ FrontLight.reset with drainLevel := some 7 } : FrontLight).drainLevel = some 7 := by
  decide

/-- A reset waits for the exit, begun by it or by wake sources. -/
theorem wit_ExitEndWakes_reset : ∀ w ∈ [[], [WakeSource.radio, .host]],
    (let s : State := { asleep (some 9) w with pow := { (asleep (some 9) w).pow with resetWaits := true } }
     s.pow.exit = some 9 ∧ s.pow.waking = w ∧ s.pow.resetWaits = true) := by
  decide

theorem wit_LongPressAndRun_toggle :
    (0 < ({ FrontLight.reset with levelTarget := 1 } : FrontLight).levelTarget ∧ base.light.levelTarget = 0) ∧
    ({ KeyScan.reset with run := some { timer := none, turns := 1 } } : KeyScan).settles = true ∧
    ({ KeyScan.reset with run := some { timer := none, turns := 0 } } : KeyScan).settles = false ∧
    (let s : State := { base with eng := { Engine.reset with completions := List.replicate 47 done1 } }
     s.eng.queue.length < 32 ∧ s.eng.queue.length + s.lanesOccupied + s.eng.completions.length < 48) ∧
    (let s : State := { base with eng := { Engine.reset with queue := List.replicate 32 entry1 } }
     ¬ s.eng.queue.length < 32) := by
  decide

theorem wit_WarmResetKeepsAndDrops_flash :
    (∀ f ∈ [FlashState.claiming, .offline, .resetting, .running, .suspending, .suspended],
      (flashIn f (some read5)).store.flash = f ∧ (flashIn f (some read5)).pow.resetLow = false ∧
        (flashIn f (some read5)).pow.state.awake = true) ∧
    read5 = { source := .host (req .storeRead []), kind := .read 0 4, arrival := 5 } ∧
    fetchOp = { source := .fetch, kind := .program 1048576 [1], arrival := 6 } ∧
    erase4 = { source := .host (req .storeErase []), kind := .erase 8, arrival := 4 } := by
  decide

theorem wit_WriteTransferAccepts_wakes :
    ((inState .starting base).pow.state = .starting ∧ (inState .doze base).ready = true ∧ (inState .draining base).ready = true) ∧
    ({ Power.reset with resetLow := true } : Power).resetLow = true ∧ base.link.wakeTransfer = false ∧
    ({ Link.reset with wakeTransfer := true } : Link).wakeTransfer = true := by
  decide

theorem wit_WakeSourcesBeginWake_joins :
    .host ∈ (asleep (some 9) [.host]).pow.waking ∧ (asleep (some 9) []).pow.waking = [] ∧
    (.radio ∉ (asleep (some 9) [.host]).pow.waking ∧ (asleep (some 9) [.host]).pow.radioAttn = false) ∧
    ({ Power.reset with radioAttn := true } : Power).radioAttn = true := by
  decide

theorem wit_WaveDropAndBands_slots :
    (wave1 .installed).inUse = false ∧ ({ wave1 .installed with lanes := 1 } : Wave).inUse = true ∧
    ¬ ((wave1 .loading).state = .installed) ∧ ({ wave1 .retired with claimed := true } : Wave).inUse = true := by
  decide

theorem wit_BootTableApplied_reads :
    (booting (boot1 [] none)).pow.boot = some (boot1 [] none) ∧ (boot1 [] none).image = none ∧
    ({ boot1 [] none with headerRead := false } : Boot).headerRead = false ∧
    (∀ n ∈ [1, 65536], nat16At (le16 0x4D5A ++ le32 n ++ le32 0) 0 = 0x4D5A ∧ nat32At (le16 0x4D5A ++ le32 n ++ le32 0) 2 = n) ∧
    ¬ nat32At (le16 0x4D5A ++ le32 65537 ++ le32 0) 2 ≤ 65536 ∧
    ([9] : List Byte).length < ({ boot1 [0, 0, 0] none with entries := [] } : Boot).length ∧
    (boot1 [0, 0, 0] none).length ≤ (boot1 [0, 0, 0] none).entries.length ∧
    crc32 (boot1 [0, 0, 0] none).entries = (boot1 [0, 0, 0] none).sum ∧ crc32 [0, 0, 1] ≠ crc32 [0, 0, 0] := by
  decide +kernel

theorem wit_BootTableApplied_walk :
    (([] : List Byte).length ≤ 0) ∧ (0 < ([1, 5] : List Byte).length ∧ ([1, 5] : List Byte).length < 0 + 3) ∧
    (let es : List Byte := [0, 1, 0, 9]; byteAt es 0 = 0 ∧ nat16At es 1 ≠ 0 ∧ 0 + 3 + nat16At es 1 ≤ es.length) ∧
    (let es : List Byte := [0, 0, 0]; byteAt es 0 = 0 ∧ nat16At es 1 = 0 ∧ 0 + 3 + nat16At es 1 ≤ es.length) ∧
    (∀ p ∈ [(1048576, 1), (1048575, 1), (1048576, 0)],
      let es : List Byte := [6, 8, 0] ++ le32 p.1 ++ le32 p.2
      byteAt es 0 = 6 ∧ nat16At es 1 = 8 ∧ es.length = 11 ∧ nat32At ((es.drop 3).take 8) 0 = p.1 ∧
        nat32At ((es.drop 3).take 8) 4 = p.2) ∧
    (byteAt [7, 0, 0] 0 ≠ 0 ∧ byteAt [7, 0, 0] 0 ≠ 6) ∧
    (settingOfNumber (byteAt [38, 1, 0, 0, 0] 0) = some .resleepMs ∧ settingOfNumber (byteAt [39, 1, 0, 0, 0] 0) = none) ∧
    (List.replicate 256 (15 : Byte)).length = 256 ∧
    (ReqKind.bands.lengthOk ([1, 50] : List Byte).length = true ∧ bandsCheck [1, 50] = none ∧ bandsCheck [0, 50] ≠ none) ∧
    (let d := le16 3300 ++ le16 0 ++ le16 3301 ++ le16 1000
     ReqKind.limits.lengthOk d.length = true ∧ limitsOk (pairs16 d) = true ∧ limitsOk (pairs16 (le16 0 ++ le16 0)) = false) ∧
    (ReqKind.follow.lengthOk ([0] : List Byte).length = true ∧ followCheck base.light.table [0] = none ∧
      followCheck base.light.table [1] ≠ none) := by
  decide +kernel

theorem wit_BootTableApplied_images :
    ((boot1 [] (some { next := 8, left := 0, got := [] })).image = some { next := 8, left := 0, got := [] }) ∧
    (imageLoop 0 1 [] base).2 = .over ∧ (imageLoop 0 8 (List.replicate 7 0) base).2 = .bad ∧
    (imageLoop 1 8 (List.replicate 7 0) base).2 = .more (List.replicate 7 0) ∧
    (∀ b ∈ [[4, 0, 1, 28], [1, 1, 1, 28], [1, 0, 0, 28]],
      ¬ (byteAt b 0 ≤ 3 ∧ byteAt b 1 < base.wav.table.count ∧ 1 ≤ byteAt b 2)) ∧
    (byteAt record1 0 ≤ 3 ∧ byteAt record1 1 < base.wav.table.count ∧ 1 ≤ byteAt record1 2 ∧
      byteAt record1 2 ≤ base.freeUnits ∧ 8 + 64 * byteAt record1 2 ≤ record1.length + 0) ∧
    crc32 ((record1.drop 8).take 64) = BitVec.ofNat 32 (nat32At record1 4) ∧
    crc32 (List.replicate 64 1) ≠ BitVec.ofNat 32 (nat32At record1 4) ∧ byteAt record1 0 = Mode.tone.code := by
  decide +kernel

theorem wit_BootTableApplied_defaults :
    base.sup.waiting = [] ∧ base.eng.queue = [] ∧ base.store.flash ≠ .claiming ∧ base.fetch.paused = false ∧
    base.light.claim = 0 ∧ base.light.grant = 0 := by
  decide

/-- Boundaries at which a lane is left, none is, and a claim without the base is left. -/
theorem wit_LaneEndsOrStops_boundary :
    (let s : State := { driving { lane1 with phase := 1 } with eng := { (driving lane1).eng with
       lanes := [some { lane1 with phase := 1 }, some { lane1 with num := 1, total := 2, state := .joining }] } }
     s.eng.boundary = some 100 ∧ ∃ l ∈ (endAndStop s).eng.lanes, l ≠ none) ∧
    (let s := driving { lane1 with state := .stopping }
     s.eng.boundary = some 100 ∧ (∀ l ∈ (endAndStop s).eng.lanes, l = none) ∧ (endAndStop s).claimingEntry = none) ∧
    (let e := { entry1 with pick := some { pick1 with base := none } }
     let s : State := { driving lane1 with eng := { (driving lane1).eng with
       queue := [e], lanes := [some { lane1 with phase := 1 }] } }
     s.eng.boundary = some 100 ∧ (∀ l ∈ (endAndStop s).eng.lanes, l = none) ∧ (endAndStop s).claimingEntry = some e ∧
       e.pick = some { pick1 with base := none }) := by
  decide

theorem wit_CreditsGoRound_offline :
    (let s : State := { cursorAt 9 .staged none with store := (flashIn .offline none).store }
     (s.store.flash = .offline ∧ s.fetch.slot = none ∧ s.fetch.paused = false ∧ s.pow.state.awake = true ∧
       channelsAfter s.fetch.lastGiven = [] ++ 0 :: [1, 2, 3]) ∧ programReady s 0 0) ∧
    (let s : State := { cursorAt 8 .missing none with store := (flashIn .offline none).store }
     s.store.flash = .offline ∧ eraseReady s 0 ∧ ∀ d < 4, ∀ j, ¬ programReady s d j) :=
  ⟨⟨by decide, wit_CreditsGoRound_slot.2.1⟩, by decide, wit_CreditsGoRound_slot.2.2.2.1, wit_CreditsGoRound_slot.2.2.2.2.1⟩

theorem wit_OverrunResetsFlash_offline :
    (flashIn .resetting none).store.op = none ∧ (flashIn .resetting (some erase4)).store.op = some erase4 ∧
    (flashIn .resetting none).store.flash = .resetting ∧ base.pow.boot = none ∧
    (let s : State := { base with store := { Store.reset with flash := .suspended, op := some erase4, batch := [read5, read5] } }
     s.store.flash = .suspended ∧ s.store.op = some erase4 ∧
       s.store.batch = { source := .host (req .storeRead []), kind := .read 0 4, arrival := 5 } :: [read5] ∧
       s.store.queue.Pairwise (fun a b => a.arrival ≤ b.arrival)) := by
  decide

/-- The light with a level, a claim and a grant, and a waiting claim of the store or none. -/
def reporting (level claim : Nat) (waits : Bool) : State :=
  { base with
    light := { FrontLight.reset with level := level, claim := claim, grant := claim },
    sup := { Supply.reset with limit := 400, waiting := if waits then [{ who := .store, amount := 1 }] else [] } }

theorem wit_DecisionPassOrder_reports :
    (reporting 0 0 false).lightClaimMa = (reporting 0 0 false).light.claim ∧
    ((reporting 0 5 false).lightClaimMa ≠ (reporting 0 5 false).light.claim ∧
      (reporting 0 5 false).lightClaimMa < (reporting 0 5 false).light.grant) ∧
    (∀ w ∈ [true, false], (reporting 1000 0 w).lightClaimMa ≠ (reporting 1000 0 w).light.claim ∧
      (reporting 1000 0 w).light.grant < (reporting 1000 0 w).lightClaimMa) ∧
    (reporting 1000 0 true).sup.waiting ≠ [] ∧ (reporting 1000 0 false).sup.waiting = [] := by
  decide

theorem wit_ConverterServesOwners_flags :
    (resting true false false .temp).temp = true ∧ (converting .temp).conv.busy = some (.temp, 200) ∧
    (base.conv.temp = false ∧ base.conv.busy = none) ∧ base.wav.fault = false ∧
    ({ WaveStore.reset with fault := true } : WaveStore).fault = true := by
  decide

/-- A state with completion records and the DONE notice waiting or not. -/
def recorded (n : Nat) (out : List OutItem) : State :=
  { base with eng := { Engine.reset with completions := List.replicate n done1 }, link := { Link.reset with out := out } }

theorem wit_NoticesMergeAndModerate_completions :
    (recorded 46 []).eng.completions.length < 47 ∧
    (47 ≤ (recorded 47 []).eng.completions.length ∧ (moderatedTrigger .done (recorded 47 [])).noticeWaits .done = false) ∧
    (47 ≤ (recorded 47 [.waiting .done]).eng.completions.length ∧
      (moderatedTrigger .done (recorded 47 [.waiting .done])).noticeWaits .done = true) := by
  decide

theorem wit_SleepIsEntered_return :
    base.light.drainLevel = none ∧ ({ FrontLight.reset with drainLevel := some 1000 } : FrontLight).drainLevel = some 1000 := by
  decide

/-- The front light on its way from a level to another. -/
def ramping (level target : Nat) : State :=
  { base with light := { FrontLight.reset with level := level, levelTarget := target, ramp := some 10 } }

theorem wit_RampStepMovesCurrents_ends :
    base.light.ramp = none ∧
    moveToward ((ramping 0 21).settingNat .rampRate) 0 21 ≠ 21 ∧ moveToward ((ramping 0 20).settingNat .rampRate) 0 20 = 20 ∧
    (ramping 0 20).light.ramp = some 10 ∧ (ramping 0 20).light.warmth = (ramping 0 20).light.warmthTarget := by
  decide +kernel

theorem wit_LongPressAndRun_stopped :
    ((keyed .reset).keys.key .light).long = none ∧ (∀ r, ((keyed .reset).keys.key .back).run = some r → r.timer = none) ∧
    (let s := keyed { KeyScan.reset with state := .held, long := some 5 }
     (s.keys.key .power).long = some 5 ∧ (s.keys.key .power).state ≠ .down) ∧
    (let s := inState .sleep (keyed { KeyScan.reset with state := .down, long := some 5 })
     (s.keys.key .back).long = some 5 ∧ (s.keys.key .back).state = .down ∧ s.pow.state = .sleep) := by
  refine ⟨rfl, ?_, by decide, by decide⟩
  intro r h; cases h

theorem wit_ChunkFrameEnds_closing :
    (let f : Reception := { channel := 0, index := 0, length := 1 }
     let s (slot : Option SlotOp) : State :=
       { base with fetch := { (channelIn .closing (chunkIn .missing 0) (chunkIn .missing 0)).fetch with
                                reception := some f, slot := slot } }
     ∀ slot ∈ [none, some (slot0 none true), some (slot0 none false)],
       (s slot).fetch.reception = some f ∧ ((s slot).channel 0).state = .closing ∧
       (s slot).ownInFlight 0 = (slot == some (slot0 none false))) ∧
    (base.channel 0).state ≠ .armed ∧ (base.channel 0).state ≠ .closing := by
  decide

theorem wit_FetchCloseAndStatus_closing :
    (let s := channelIn .closing (chunkIn .missing 0) (chunkIn .missing 0)
     (s.channel 0).state = .closing ∧ s.fetch.reception = none ∧ s.fetch.slot = none) ∧
    (slot0 none false).channel = 0 ∧ (slot0 none false).ignored = false ∧ (base.channel 0).state ≠ .closing := by
  decide

theorem wit_DecisionPassOrder_cutState :
    (lit 14 5).light.state ≠ .cut ∧
    (let s : State := { lit 14 5 with light := { (lit 14 5).light with claim := 6, state := .cut } }
     s.light.state = .cut ∧ s.light.grant ≤ s.light.claim ∧ 4 < s.light.grant) := by
  decide

theorem wit_SleepIsEntered_radio :
    base.pow.radioAttn = false ∧ ({ Power.reset with radioAttn := true } : Power).radioAttn = true := by
  decide

theorem wit_WarmResetKeepsAndDrops_exit :
    ((asleep (some 9) []).pow.resetLow = false ∧ (asleep (some 9) []).pow.state = .sleep ∧
      (asleep (some 9) []).pow.exit ≠ none) ∧
    (base.store.flash ≠ .claiming ∧ base.store.flash ≠ .offline ∧ base.store.flash ≠ .resetting ∧ base.store.op = none) ∧
    read5.kind = .read 0 4 ∧ fetchOp.kind = .program 1048576 [1] ∧ erase4.kind = .erase 8 ∧
    (flashIn .running (some read5)).store.grant = none ∧ ({ Store.reset with grant := some 3 } : Store).grant ≠ none := by
  decide

theorem wit_WaveformLoad_slot :
    (∃ v ∈ [wave1 .installed, { wave1 .loading with num := 1 }], v.num ≠ 1 ∧ v.state = .installed ∧ v.mode = .tone ∧
      v.band = 0) ∧ ({ wave1 .installed with num := 2, band := 1 } : Wave).num ≠ 1 := by
  decide

end Sys2Proof.Tests
end

section
namespace Sys2Proof.Machine

open Sys2Proof Sys2Proof.Claims

/-! ## How CACHE_READY and CACHE_DROP are served (R70, R71) -/

/-- CACHE_READY runs to the response that its serving gives once the request is taken. -/
theorem runs_cacheReady {s u : State} {r : Request} {c : Code} {b : List Byte} (h : s.taken .cacheReady = some r)
    (hs : serveCacheReady r (took .display s) = respond r c b u) : runs .cacheReady s (replied .cacheReady r c b u) :=
  runs_of_taken h rfl (hs.trans (respond_eq_replied h c b u))

/-- CACHE_DROP runs to the response that its serving gives once the request is taken. -/
theorem runs_cacheDrop {s u : State} {r : Request} {c : Code} {b : List Byte} (h : s.taken .cacheDrop = some r)
    (hs : serveCacheDrop r (took .display s) = respond r c b u) : runs .cacheDrop s (replied .cacheDrop r c b u) :=
  runs_of_taken h rfl (hs.trans (respond_eq_replied h c b u))

/-- No entry has a number above 7, so CACHE_READY refuses it by RANGE. -/
theorem serveCacheReady_range {r : Request} (s : State) (hn : 7 < byteAt r.body 0) :
    serveCacheReady r s = respond r .range [] s :=
  if_pos hn

/-- Without an OPEN entry of its number CACHE_READY is refused by STATE. -/
theorem serveCacheReady_state {r : Request} {s : State} (hn : byteAt r.body 0 ≤ 7)
    (ho : s.entryOpen (byteAt r.body 0) = false) : serveCacheReady r s = respond r .state [] s := by
  simp [serveCacheReady, Nat.not_lt.2 hn, ho]

/-- With an OPEN entry of its number CACHE_READY makes it READY and leaves every other part of the state. -/
theorem serveCacheReady_ok {r : Request} {s : State} (hn : byteAt r.body 0 ≤ 7)
    (ho : s.entryOpen (byteAt r.body 0) = true) : serveCacheReady r s =
      respond r .ok [] (s.onCache fun c => c.modify (byteAt r.body 0) Entry.readied) := by
  simp [serveCacheReady, Nat.not_lt.2 hn, ho]

/-- A selector above 2 names neither an entry nor a list. -/
theorem serveCacheDrop_selector {r : Request} (s : State) (hk : 2 < byteAt r.body 0) :
    serveCacheDrop r s = respond r .range [] s := by
  unfold serveCacheDrop
  split
  case h_4 => rfl
  all_goals omega

/-- Selector 0 names one entry, and a number above 7 is refused by RANGE. -/
theorem serveCacheDrop_range {r : Request} (s : State) (hk : byteAt r.body 0 = 0) (hn : 7 < byteAt r.body 1) :
    serveCacheDrop r s = respond r .range [] s := by
  simp [serveCacheDrop, hk, hn]

/-- Selector 0 with a number that no entry has is refused by STATE. -/
theorem serveCacheDrop_state {r : Request} {s : State} (hk : byteAt r.body 0 = 0) (hn : byteAt r.body 1 ≤ 7)
    (hf : s.cache.find (byteAt r.body 1) = none) : serveCacheDrop r s = respond r .state [] s := by
  simp [serveCacheDrop, hk, Nat.not_lt.2 hn, hf]

/-- Selector 0 with an entry's number drops that entry and answers the count 1. -/
theorem serveCacheDrop_ok {r : Request} {s : State} (hk : byteAt r.body 0 = 0) (hn : byteAt r.body 1 ≤ 7)
    (hf : s.cache.find (byteAt r.body 1) ≠ none) :
    serveCacheDrop r s = respond r .ok [1] (dropOne (byteAt r.body 1) s) := by
  simp [serveCacheDrop, hk, Nat.not_lt.2 hn, Option.isSome_iff_ne_none.2 hf]

/-- Selectors 1 and 2 name a list by its code: it is dropped whole, and its length before is the count. -/
theorem serveCacheDrop_list {r : Request} (s : State) {d : Dir} (hk : byteAt r.body 0 = d.code + 1) :
    serveCacheDrop r s = respond r .ok [byteOf (s.cache.list d).length] (dropList d s) := by
  cases d <;> simp only [serveCacheDrop, hk, Dir.code, PageCache.list]

/-- Dropping an entry takes it off both lists and frees its slabs, at a credit point (R60, R120). -/
theorem dropOne_eq (n : Nat) (s : State) : dropOne n s = creditPoint { s with
    cache := { s.cache with forward := s.cache.forward.filter fun e => e.num != n,
                            back := s.cache.back.filter fun e => e.num != n },
    pool := s.pool.map fun h => if h = .entry n then .free else h } := by
  simp [dropOne, freeEntries, freeSlabs, State.onCache]

/-- Dropping a list empties it and frees the slabs of its entries, at a credit point (R60, R120). -/
theorem dropList_eq (d : Dir) (s : State) : dropList d s = creditPoint { s with
    cache := s.cache.setList d [],
    pool := s.pool.map fun h => if (s.cache.list d).any (fun e => h == .entry e.num) then .free else h } := by
  simp only [dropList, freeEntries, freeSlabs, State.onCache, List.any_map, Function.comp_def]

end Sys2Proof.Machine

namespace Sys2Proof.Claims

open Sys2Proof Sys2Proof.Machine

/-- Settles O16: each clause is one case of serving the taken request. -/
theorem cacheReadyAndDrop : Obligations.CacheReadyAndDrop := by
  constructor
  · intro s r h
    refine ⟨fun above => ?range, fun small notOpen => ?state, fun small isOpen => ?ready⟩
    case range => exact runs_cacheReady h (serveCacheReady_range _ above)
    case state => exact runs_cacheReady h (serveCacheReady_state small notOpen)
    case ready => exact runs_cacheReady h (serveCacheReady_ok small isOpen)
  · intro s r h
    refine ⟨fun above => ?selector, fun zero above => ?range, fun zero small absent => ?state,
      fun zero small found => ?entry, fun d named => ?list⟩
    case selector => exact runs_cacheDrop h (serveCacheDrop_selector _ above)
    case range => exact runs_cacheDrop h (serveCacheDrop_range _ zero above)
    case state => exact runs_cacheDrop h (serveCacheDrop_state zero small absent)
    case entry =>
      have served := serveCacheDrop_ok (s := took .display s) zero small found
      rw [dropOne_eq] at served
      exact runs_cacheDrop h served
    case list =>
      have served := serveCacheDrop_list (took .display s) named
      rw [dropList_eq] at served
      exact runs_cacheDrop h served

end Sys2Proof.Claims
end

section
namespace Sys2Proof.Machine

open Sys2Proof

/-! ## The lines READY and ATTN (R158, R164) -/

/-- The part is awake in ACTIVE, DOZE and DRAINING, and asleep or starting otherwise. -/
theorem PowerState.awake_iff (p : PowerState) : p.awake = true ↔ p = .active ∨ p = .doze ∨ p = .draining := by
  cases p <;> simp [PowerState.awake]

/-- READY is the conjunction of R164's four conditions. -/
theorem ready_iff (s : State) : s.ready = true ↔
    (s.pow.state = .active ∨ s.pow.state = .doze ∨ s.pow.state = .draining) ∧ s.pow.exit = none ∧
      s.pow.resetLow = false ∧ s.link.opened < 16 := by
  simp [State.ready, PowerState.awake_iff, and_assoc]

/-- A packet that raises ATTN while the host sleeps is a response or a waiting wake notice; a built notice is neither. -/
theorem raisesAttn_iff (s : State) (i : OutItem) : s.raisesAttn i = true ↔
    (∃ r, i = .response r) ∨ ∃ k, i = .waiting k ∧ s.isWakeNotice k = true := by
  cases i <;> simp [State.raisesAttn]

/-- Some packet of a queue raises ATTN exactly when the queue holds a response or a waiting wake notice. -/
theorem any_raisesAttn_iff (s : State) (out : List OutItem) : out.any s.raisesAttn = true ↔
    (∃ r, OutItem.response r ∈ out) ∨ ∃ k, OutItem.waiting k ∈ out ∧ s.isWakeNotice k = true := by
  simp only [List.any_eq_true, raisesAttn_iff]
  constructor
  · rintro ⟨i, queued, ⟨r, rfl⟩ | ⟨k, rfl, wakes⟩⟩
    · exact .inl ⟨r, queued⟩
    · exact .inr ⟨k, queued, wakes⟩
  · rintro (⟨r, queued⟩ | ⟨k, queued, wakes⟩)
    · exact ⟨_, queued, .inl ⟨r, rfl⟩⟩
    · exact ⟨_, queued, .inr ⟨k, rfl, wakes⟩⟩

/-- In STARTING ATTN is low. -/
theorem attn_starting {s : State} (h : s.pow.state = .starting) : s.attn = false := by
  simp [State.attn, h]

/-- In ACTIVE any packet of the outbound queue raises ATTN. -/
theorem attn_active_iff {s : State} (h : s.pow.state = .active) : s.attn = true ↔ s.link.out ≠ [] := by
  simp [State.attn, h]

/-- In DOZE, DRAINING and SLEEP ATTN asks for a packet that is worth the host's waking. -/
theorem attn_hostAsleep {s : State} (h : s.pow.state = .doze ∨ s.pow.state = .draining ∨ s.pow.state = .sleep) :
    s.attn = s.link.out.any s.raisesAttn := by
  rcases h with h | h | h <;> simp only [State.attn, h]

/-- For every kind but POWER and KEY the setting wake_set alone says whether its notice wakes. -/
theorem isWakeNotice_eq_inWakeSet (s : State) {k : NoticeKind} (notPower : k ≠ .power) (notKey : k ≠ .key) :
    s.isWakeNotice k = s.inWakeSet k := by
  cases k
  case power => exact absurd rfl notPower
  case key => exact absurd rfl notKey
  all_goals rfl

/-- A BATTERY_LOW event (bit 5) makes a POWER notice wake whatever wake_set says; one of ENTERED alone (the value 2) never
wakes the host that sent the part to sleep. -/
theorem isWakeNotice_power_iff (s : State) : s.isWakeNotice .power = true ↔
    s.pow.events.getLsbD 5 = true ∨ (s.inWakeSet .power = true ∧ s.pow.events ≠ 2) := by
  simp [State.isWakeNotice]

/-- A KEY notice wakes by wake_set or by a record of the POWER key. -/
theorem isWakeNotice_key_iff (s : State) : s.isWakeNotice .key = true ↔
    s.inWakeSet .key = true ∨ ∃ r ∈ s.keys.records, r.key = .power := by
  simp [State.isWakeNotice]

end Sys2Proof.Machine

namespace Sys2Proof.Claims

open Sys2Proof Sys2Proof.Machine

/-- Settles O55: READY's four conditions, then ATTN by power state and the wake notices by kind. -/
theorem readyAndAttnLines : Obligations.ReadyAndAttnLines := by
  refine ⟨ready_iff, fun s => ⟨attn_starting, attn_active_iff, fun hostAsleep => ?asleep,
    fun _ => isWakeNotice_eq_inWakeSet s, isWakeNotice_power_iff s, isWakeNotice_key_iff s⟩⟩
  case asleep =>
    rw [attn_hostAsleep hostAsleep]
    exact any_raisesAttn_iff s s.link.out

end Sys2Proof.Claims
end

section
namespace Sys2Proof.Machine

open Sys2Proof Sys2Proof.Claims

/-! ## What a command does before it ends -/

/-- The request kind whose row a command is, if it is one of the 31 request commands (R166). -/
def requestOf : Instr → Option ReqKind
  | .pixels => some .pixels | .toneMap => some .toneMap | .update => some .update | .abort => some .abort
  | .pageTag => some .pageTag | .cacheOpen => some .cacheOpen | .cacheReady => some .cacheReady
  | .cacheDrop => some .cacheDrop | .turn => some .turn | .waveBegin => some .waveBegin | .waveData => some .waveData
  | .waveEnd => some .waveEnd | .waveDrop => some .waveDrop | .bands => some .bands | .light => some .light
  | .follow => some .follow | .fetchOpen => some .fetchOpen | .fetchSums => some .fetchSums | .fetchArm => some .fetchArm
  | .fetchClose => some .fetchClose | .fetchStatus => some .fetchStatus | .storeRead => some .storeRead
  | .storeProgram => some .storeProgram | .storeErase => some .storeErase | .set => some .set | .get => some .get
  | .status => some .status | .limits => some .limits | .doze => some .doze | .sleep => some .sleep | .wake => some .wake
  | _ => none

/-- What a command that is no request does to the state before the takes of its event: the command's own function. -/
def surroundings : Instr → State → State
  | .coldReset service => coldReset service
  | .warmReset => resetFalls
  | .resetRise => fun s => s.onPow fun p => { p with resetLow := false }
  | .writeTransfer bytes => writeNow bytes
  | .readTransfer => readNow
  | .packetLeft => packetLeftNow
  | .unknownTransfer => fun s => if s.linkOpen then recordLink 1 (transferEnds s) else s
  | .chipSelectFall => fun s => transferBegins (if s.pow.state = .sleep then wakeSource .host s else s)
  | .statusRead => fun s => radioSend s.radioStatusBytes s
  | .refetchRead channel => fun s => radioSend (s.refetchBytes channel.toNat) s
  | .chunkHeader bytes => fun s => if s.radioOpen && s.fetch.reception.isNone then headerNow bytes s else s
  | .chunkFrameEnd payload => fun s => match s.fetch.reception with
    | none => s
    | some f => frameEndNow f payload s
  | .radioAttnRise high => fun s =>
    let s1 := s.onPow fun p => { p with radioAttn := high }
    if high && !s.pow.radioAttn && s.pow.state == .sleep then wakeSource .radio s1 else s1
  | .keyEdge key pressed => keyEdgeNow key pressed
  | .debounceExpiry key => fun s => expire (s.keys.key key).debounce (debounceNow key) s
  | .longTimerExpiry key => fun s => expire (s.keys.key key).long (longNow key) s
  | .runTick key => fun s => expire (s.keys.key key).runTimer (tickNow key) s
  | .frameBoundary => fun s => expire s.eng.boundary boundaryNow s
  | .conversionEnd raw => conversionNow raw
  | .tempIntervalExpiry => fun s => expire s.wav.interval tempIntervalNow s
  | .sampleTimerExpiry => fun s => expire s.sup.sample sampleNow s
  | .rampStep => fun s => expire s.light.ramp rampStepNow s
  | .followStep => fun s => expire s.light.step followStepNow s
  | .followSettleExpiry => fun s => expire s.light.settle followSettleNow s
  | .moderationSettleExpiry kind => settleFires kind
  | .moderationAbsoluteExpiry kind => absoluteFires kind
  | .drainTimerExpiry => fun s => expire s.pow.drain drainExpires s
  | .wakeTimerExpiry => fun s => expire s.pow.wakeTimer wakeTimerNow s
  | .resleepTimerExpiry => fun s => expire s.pow.resleep resleepNow s
  | .selfRefreshExitEnd => fun s => expire s.pow.exit exitEnds s
  | .flashReadDone => flashReadNow
  | .flashPageDone => flashPageNow
  | .flashEraseDone => flashEraseNow
  | .flashFailure => flashFailureNow
  | .flashSuspended => flashSuspendedNow
  | .suspendNoAnswer => noAnswerNow
  | .minRunPoint => minRunNow
  | .runningTimeOverrun => overrunNow
  | .flashResetDone => flashResetNow
  | .flashResetTimeout => resetTimeoutNow
  | .pwmPeriodStart ch => periodStart ch
  | _ => id

/-- What a command does before the takes of its event: a request command takes and serves, another runs its own function. -/
def effect (c : Instr) (s : State) : State :=
  match requestOf c with
  | some k => takeRequest k (serve k) s
  | none => surroundings c s

/-- Every command has its effect, and ends as `finish` has it. -/
theorem exec_eq_event (c : Instr) (s : State) : exec c s = event (effect c s) := by
  cases c <;> rfl

/-- A request kind's command takes and serves a request of that kind. -/
theorem effect_commandOf (k : ReqKind) (s : State) : effect (commandOf k) s = takeRequest k (serve k) s := by
  cases k <;> rfl

/-- A step on an empty queue lets one microsecond pass; another one runs the front command's effect and ends the event. -/
theorem step_cases (s t : State) (h : step s = .next t) :
    (s.pending = [] ∧ t = { s with now := s.now + 1 }) ∨
      ∃ c rest, s.pending = c :: rest ∧ t = finish (effect c { s with pending := rest }) := by
  unfold step at h
  split at h
  · rename_i idle; cases h; exact .inl ⟨idle, rfl⟩
  · rename_i c rest front
    rw [exec_eq_event] at h; cases h
    exact .inr ⟨c, rest, front, rfl⟩

/-- The parts of an event that a property has to survive for every step to keep it: the clock, the queue of commands, an
owner's taking and serving, the surroundings' commands and power control's judgement. -/
structure Kept (P : State → Prop) : Prop where
  clock : ∀ s : State, P s → P { s with now := s.now + 1 }
  front : ∀ (s : State) (rest : List Instr), P s → P { s with pending := rest }
  leave : ∀ (st : Stream) (s : State), P s → P (leaveInbound st s)
  serves : ∀ (k : ReqKind) (r : Request) (s : State), P s → P (serve k r s)
  others : ∀ (c : Instr) (s : State), P s → P (surroundings c s)
  judge : ∀ s : State, P s → P (judgePower s)

namespace Kept

variable {P : State → Prop}

/-- A take keeps what leaving the inbound list and serving keep. -/
theorem take (kept : Kept P) (k : ReqKind) {s : State} (h : P s) : P (takeRequest k (serve k) s) := by
  unfold takeRequest
  split
  · exact h
  · exact kept.serves k _ _ (kept.leave _ s h)

/-- The takes of an event keep it, one after another. -/
theorem takes (kept : Kept P) (n : Nat) {s : State} (h : P s) : P (takeDue n s) := by
  induction n generalizing s with
  | zero => exact h
  | succ n ih =>
    unfold takeDue
    split
    · exact h
    · exact ih (kept.take _ h)

/-- Every command keeps it. -/
theorem effect (kept : Kept P) (c : Instr) {s : State} (h : P s) : P (effect c s) := by
  unfold Machine.effect
  split
  · exact kept.take _ h
  · exact kept.others c s h

/-- Every step keeps it. -/
theorem step (kept : Kept P) {s t : State} (h : P s) (ht : step s = .next t) : P t := by
  rcases step_cases s t ht with ⟨-, rfl⟩ | ⟨c, rest, -, rfl⟩
  · exact kept.clock s h
  · exact kept.judge _ (kept.takes _ (kept.effect c (kept.front s rest h)))

end Kept

/-! ## The takes of an event -/

/-- The due kind is that of the first waiting request whose owner is free. -/
theorem due_of_first {s : State} {older newer : List Request} {r : Request} (h : s.link.inbound = older ++ r :: newer)
    (free : s.ownerFree r.kind.stream = true) (busy : ∀ q ∈ older, s.ownerFree q.kind.stream = false) :
    s.due = some r.kind := by
  have first : s.link.inbound.find? (fun r => s.ownerFree r.kind.stream) = some r :=
    List.find?_eq_some_iff_append.2 ⟨free, older, newer, h, fun q hq => by simp [busy q hq]⟩
  simp [State.due, first]

/-- Nothing is due exactly when no waiting request's owner is free. -/
theorem due_eq_none_iff (s : State) : s.due = none ↔ ∀ q ∈ s.link.inbound, s.ownerFree q.kind.stream = false := by
  simp [State.due]

/-- With nothing due an event ends with power control's judgement alone. -/
theorem finish_of_due_none {s : State} (h : s.due = none) : finish s = judgePower s := by
  unfold finish
  cases s.link.inbound.length <;> simp [takeDue, h]

/-- With a take due an event ends as it does after that take. -/
theorem finish_of_due {s : State} {k : ReqKind} (h : s.due = some k) : finish s = finish (takeRequest k (serve k) s) := by
  have length := take_length h
  obtain ⟨n, hn⟩ : ∃ n, s.link.inbound.length = n + 1 := ⟨_, length.symm⟩
  have rest : (takeRequest k (serve k) s).link.inbound.length = n := by omega
  simp [finish, hn, rest, takeDue, h]

/-- Outside DRAINING the drain conditions are not judged. -/
theorem drainJudge_of_not_draining {s : State} (h : s.pow.state ≠ .draining) : drainJudge s = s := by
  simp [drainJudge, h]

/-- Outside a DOZE with resleep pending the resleep conditions are not judged. -/
theorem resleepJudge_of_not {s : State} (h : ¬ (s.pow.state = .doze ∧ s.pow.resleepPending = true)) : resleepJudge s = s :=
  if_neg h

/-- The part is in SLEEP once SLEEP is entered. -/
@[simp] theorem enterSleep_state (s : State) : (enterSleep s).pow.state = .sleep := by
  simp only [enterSleep]
  split <;> simp [wakeSource, recordPower]

/-- In DOZE power control judges resleep alone. -/
theorem judgePower_doze {s : State} (h : s.pow.state = .doze) : judgePower s = resleepJudge s := by
  rw [judgePower, drainJudge_of_not_draining (by simp [h])]

/-- Power control judges nothing in a state that is neither DRAINING nor DOZE. -/
theorem judgePower_of_not {s : State} (h1 : s.pow.state ≠ .draining) (h2 : s.pow.state ≠ .doze) : judgePower s = s := by
  rw [judgePower, drainJudge_of_not_draining h1, resleepJudge_of_not (by simp [h2])]

/-- In DRAINING power control enters SLEEP when all eight conditions hold, and does nothing else. -/
theorem judgePower_draining {s : State} (h : s.pow.state = .draining) :
    judgePower s = if s.drained = true then enterSleep s else s := by
  by_cases drained : s.drained = true
  · rw [judgePower, drainJudge, if_pos ⟨h, drained⟩, resleepJudge_of_not (by simp), if_pos drained]
  · rw [judgePower, drainJudge, if_neg (fun both => drained both.2), resleepJudge_of_not (by simp [h]), if_neg drained]

end Sys2Proof.Machine

namespace Sys2Proof.Claims

open Sys2Proof Sys2Proof.Machine

/-- Settles O1: `step` matches on the queue. -/
theorem stepRunsFrontCommand : Obligations.StepRunsFrontCommand := by
  intro c rest s front
  simp only [step, front]

/-- Settles O2: `step` matches on the queue. -/
theorem idleStepWaits : Obligations.IdleStepWaits := by
  intro s idle
  simp only [step, idle]

/-- Settles O4: every command is an event, which answers a next state. -/
theorem everyCommandCompletes : Obligations.EveryCommandCompletes := fun c s => ⟨_, exec_eq_event c s⟩

/-- Settles O3: a due take is the request's own command, and without one power control judges by its state. -/
theorem finishTakesThenJudges : Obligations.FinishTakesThenJudges := by
  refine fun s => ⟨fun older newer r waits free busy => ?take, fun busy => ?judge⟩
  case take =>
    rw [exec_eq_event, effect_commandOf, event, finish_of_due (due_of_first waits free busy)]
  case judge =>
    rw [finish_of_due_none ((due_eq_none_iff s).2 busy)]
    refine ⟨fun rests => ?rests, fun drains not => ?drains, fun drains all => ?drained, fun dozes not => ?dozes,
      fun dozes pending all none => ?arms, fun dozes pending all some => ?armed, fun dozes pending not => ?stops⟩
    case rests => rcases rests with h | h | h <;> exact judgePower_of_not (by simp [h]) (by simp [h])
    case drains => rw [judgePower_draining drains, not]; rfl
    case drained => rw [judgePower_draining drains, if_pos all]; exact ⟨rfl, enterSleep_state s⟩
    case dozes => rw [judgePower_doze dozes, resleepJudge_of_not (by simp [not])]
    case arms => rw [judgePower_doze dozes]; simp [resleepJudge, dozes, pending, all, none, State.onPow, State.inMs]
    case armed => rw [judgePower_doze dozes]; simp [resleepJudge, dozes, pending, all, some]
    case stops => rw [judgePower_doze dozes]; simp [resleepJudge, dozes, pending, not, State.onPow]

end Sys2Proof.Claims
end

section
namespace Sys2Proof.Machine

open Sys2Proof Sys2Proof.Claims

/-! ## Taking requests (R166, R167) -/

/-- A due request is waiting unless nothing is due, and the judgement of power control brings in none. -/
theorem judgePower_inbound (s : State) : (judgePower s).link.inbound = s.link.inbound := by simp

/-- Power control's judgement frees no owner: it leaves the stalled packet and the store's queue, and wakes nothing. -/
theorem judgePower_ownerFree {s : State} {st : Stream} (awake : (judgePower s).pow.state.awake = true) :
    (judgePower s).ownerFree st = s.ownerFree st := by
  by_cases drains : s.pow.state = .draining
  · rw [judgePower_draining drains] at awake ⊢
    split at awake
    · simp [PowerState.awake] at awake
    · rename_i not; rw [if_neg not]
  · by_cases dozes : s.pow.state = .doze
    · rw [judgePower_doze dozes]
      simp only [resleepJudge]
      repeat' split
      all_goals rfl
    · rw [judgePower_of_not drains dozes]

/-- No request waits at the end of a command that its owner is free to take (R167). -/
theorem finish_owners_busy {s : State} (awake : (finish s).pow.state.awake = true) :
    ∀ q ∈ (finish s).link.inbound, (finish s).ownerFree q.kind.stream = false := by
  have notDue := takeDue_due _ s (Nat.le_refl _)
  rw [due_eq_none_iff] at notDue
  intro q waits
  unfold finish at awake waits ⊢
  rw [judgePower_ownerFree awake]
  exact notDue q (by rwa [judgePower_inbound] at waits)

/-- An owner of an awake part is busy only by a stalled packet (DISPLAY) or by 4 host operations (STORE). -/
theorem busy_owner {s : State} {st : Stream} (awake : s.pow.state.awake = true) (busy : s.ownerFree st = false) :
    (st = .display ∧ s.img.stall ≠ none) ∨ (st = .store ∧ 4 ≤ s.hostOps) := by
  cases st <;> simp [State.ownerFree, awake] at busy
  case display => exact .inl ⟨rfl, Option.isSome_iff_ne_none.1 busy⟩
  case store => exact .inr ⟨rfl, busy⟩

/-- Where the oldest request of a stream stands, and what the inbound list is without it. -/
theorem oldest_split {s : State} {st : Stream} {r : Request} (h : s.oldest st = some r) :
    ∃ older newer : List Request, s.link.inbound = older ++ r :: newer ∧ (∀ q ∈ older, q.kind.stream ≠ st) ∧
      (s.link.inbound.eraseP fun r => r.kind.stream == st) = older ++ newer := by
  obtain ⟨isIts, older, newer, split, others⟩ := List.find?_eq_some_iff_append.1 h
  have notIts : ∀ q ∈ older, ¬ (q.kind.stream == st) = true := fun q hq => by simpa using others q hq
  refine ⟨older, newer, split, fun q hq => by simpa using notIts q hq, ?_⟩
  rw [split, List.eraseP_append_right _ notIts, List.eraseP_cons_of_pos (p := fun r : Request => r.kind.stream == st) isIts]

end Sys2Proof.Machine

namespace Sys2Proof.Claims

open Sys2Proof Sys2Proof.Machine

/-- Settles O10: the taken request is the oldest of its stream, its command serves it, and the takes of an event end with
none due. -/
theorem requestTakenOldestFirst : Obligations.RequestTakenOldestFirst := by
  refine ⟨fun s k r h => ?oldest, fun s k => ⟨fun r h => ?serves, fun none => ?idle⟩, fun c s t h awake => ?noneLeft⟩
  case oldest =>
    obtain ⟨kind, free, first⟩ := taken_spec h
    obtain ⟨older, newer, split, others, without⟩ := oldest_split first
    refine ⟨kind, free, older, newer, split, others, without, fun j same other => ?_⟩
    simp [State.taken, same, first, kind, Ne.symm other]
  case serves => simp [runs, exec_eq_event, effect_commandOf, event, takeRequest_taken _ h]
  case idle => simp [runs, exec_eq_event, effect_commandOf, event, takeRequest, none]
  case noneLeft =>
    rw [exec_eq_event] at h
    cases h
    exact fun q waits => busy_owner awake (finish_owners_busy awake q waits)

end Sys2Proof.Claims
end

section
namespace Sys2Proof.Machine

open Sys2Proof Sys2Proof.Claims

/-! ## The sizes of the fixed collections -/

/-- The shape, written out. -/
theorem shaped_iff (s : State) : s.shaped = true ↔
    s.settings.length = 38 ∧ s.img.tiles.length = 7500 ∧ s.eng.lanes.length = 16 ∧ s.pool.length = 240 ∧
      s.fetch.channels.length = 4 ∧ s.link.merged.length = 9 ∧ memWf s.content = true := by
  simp [State.shaped, and_assoc]

/-- The six sizes are as before. -/
def SameSizes (s t : State) : Prop :=
  t.settings.length = s.settings.length ∧ t.img.tiles.length = s.img.tiles.length ∧
    t.eng.lanes.length = s.eng.lanes.length ∧ t.pool.length = s.pool.length ∧
    t.fetch.channels.length = s.fetch.channels.length ∧ t.link.merged.length = s.link.merged.length

/-- An operation that leaves the sizes keeps the shape if it keeps the content canonical. -/
theorem SameSizes.shaped {s t : State} (same : SameSizes s t) (content : memWf s.content = true → memWf t.content = true)
    (h : s.shaped = true) : t.shaped = true := by
  obtain ⟨settings, tiles, lanes, pool, channels, merged⟩ := same
  rw [shaped_iff] at h ⊢
  obtain ⟨h1, h2, h3, h4, h5, h6, wf⟩ := h
  exact ⟨settings.trans h1, tiles.trans h2, lanes.trans h3, pool.trans h4, channels.trans h5, merged.trans h6, content wf⟩

/-- The sizes and the content are as before. -/
def SameShape (s t : State) : Prop := SameSizes s t ∧ t.content = s.content

/-- An operation that leaves the sizes and the content keeps the shape. -/
theorem SameShape.shaped {s t : State} (same : SameShape s t) (h : s.shaped = true) : t.shaped = true :=
  same.1.shaped (fun wf => by rw [same.2]; exact wf) h

/-- FOLLOW changes the light and the converter alone. -/
@[simp] theorem putFollow_sameShape (b : List Byte) (s : State) : SameShape s (putFollow b s) := by
  simp only [putFollow]
  split <;> split <;> simp [SameShape, SameSizes]

/-- A stored setting keeps its place in the table, and its effects keep the other sizes. -/
@[simp] theorem storeSetting_sameShape (st : Setting) (v : Int) (s : State) : SameShape s (storeSetting st v s) := by
  cases st
  all_goals
   simp only [storeSetting, settingEffect, linkSettings]
   repeat' split
   all_goals simp [SameShape, SameSizes, State.putSetting]

/-- A limit table may set a new limit. -/
@[simp] theorem putLimits_sameShape (pts : List (Nat × Nat)) (s : State) : SameShape s (putLimits pts s) := by
  unfold putLimits
  split <;> simp [SameShape, SameSizes]

@[simp] theorem joinOrFault_sameShape (r : Request) (k : OpKind) (s : State) : SameShape s (joinOrFault r k s) := by
  unfold joinOrFault hostJoins
  split <;> simp [SameShape, SameSizes]

/-- The same shape of one state after another. -/
theorem SameShape.trans {s t u : State} (h1 : SameShape s t) (h2 : SameShape t u) : SameShape s u := by
  simp_all [SameShape, SameSizes]

/-- A response keeps the shape. -/
@[simp] theorem respond_sameShape (r : Request) (c : Code) (b : List Byte) (s : State) : SameShape s (respond r c b s) := by
  simp [SameShape, SameSizes]

/-- An outcome that is answered has the shape that it had before the answer. -/
theorem SameShape.respond {s t : State} (h : SameShape s t) (r : Request) (c : Code) (b : List Byte) :
    SameShape s (respond r c b t) := h.trans (respond_sameShape r c b t)

/-- Serving a request keeps the sizes and the content: what the requests change lies elsewhere. -/
theorem serve_sameShape (k : ReqKind) (r : Request) (s : State) : SameShape s (serve k r s) := by
  cases k
  case follow =>
    simp only [serve, serveFollow]
    split
    · simp
    · exact (putFollow_sameShape _ s).respond ..
  case set =>
    simp only [serve, serveSet]
    split
    · simp
    · exact (storeSetting_sameShape _ _ s).respond ..
  case limits =>
    simp only [serve, serveLimits]
    split
    · exact (putLimits_sameShape _ s).respond ..
    · simp
  case storeRead | storeProgram | storeErase =>
    simp only [serve, serveStoreRead, serveStoreProgram, serveStoreErase]
    split <;> simp
  all_goals
    simp only [serve, servePixels, serveToneMap, serveUpdate, serveAbort, servePageTag, serveCacheOpen, serveCacheReady,
      serveCacheDrop, serveTurn, serveWaveBegin, serveWaveData, serveWaveEnd, serveWaveDrop, serveBands, serveLight,
      serveFetchOpen, serveFetchSums, serveFetchArm, serveFetchClose, serveFetchStatus, serveGet, serveStatus, serveDoze,
      serveSleep, serveWake]
    repeat' split
    all_goals simp [SameShape, SameSizes, writeEntry, putToneMap, openEntry, dropOne, dropList, openWave, fillWave,
      commitWave, putBands, closeArmed, freeCredits]

/-! ## The boot table -/

/-- A change of the boot record. -/
@[simp] theorem onBoot_sameShape (f : Boot → Boot) (s : State) : SameShape s (onBoot f s) := by
  simp [SameShape, SameSizes, onBoot]

@[simp] theorem SameShape.rfl {s : State} : SameShape s s := by simp [SameShape, SameSizes]

@[simp] theorem putBands_sameShape (b : List Byte) (s : State) : SameShape s (putBands b s) := by
  simp [SameShape, SameSizes, putBands]

@[simp] theorem putToneMap_sameShape (b : List Byte) (s : State) : SameShape s (putToneMap b s) := by
  simp [SameShape, SameSizes, putToneMap]

/-- An entry of the boot table. -/
@[simp] theorem bootEntry_sameShape (n : Nat) (d : List Byte) (s : State) : SameShape s (bootEntry n d s) := by
  unfold bootEntry bootSetting bootBands skipEntry
  repeat' split
  all_goals simp

theorem walkLoop_sameShape (entries : List Byte) (n k : Nat) (s : State) : SameShape s (walkLoop entries n k s).1 := by
  induction n generalizing k s with
  | zero => exact .rfl
  | succ n ih =>
    simp only [walkLoop, skipEntry, badImage, bootAt]
    repeat' split
    · exact .rfl
    · exact onBoot_sameShape _ s
    · exact onBoot_sameShape _ s
    · exact .rfl
    · exact (onBoot_sameShape _ s).trans (ih _ _)
    · exact (onBoot_sameShape _ s).trans (ih _ _)
    · exact (onBoot_sameShape _ s).trans (ih _ _)
    · exact ih _ s
    · exact onBoot_sameShape _ s
    · exact (bootEntry_sameShape _ _ s).trans (ih _ _)

/-- The end of start-up. -/
theorem startUpEnd_sameShape (o : BootOutcome) (n : Nat) (s : State) : SameShape s (startUpEnd o n s) := by
  simp [SameShape, SameSizes, startUpEnd]

theorem startBootRead_sameShape (a n : Nat) (s : State) : SameShape s (startBootRead a n s) := by
  simp [SameShape, SameSizes, startBootRead]

theorem imageRead_sameShape (a n : Nat) (got : List Byte) (s : State) : SameShape s (imageRead a n got s) :=
  (onBoot_sameShape _ s).trans (startBootRead_sameShape _ _ _)

theorem bootWalk_sameShape (s : State) : SameShape s (bootWalk s) := by
  unfold bootWalk
  split
  · exact .rfl
  · rename_i b _
    have walked := walkLoop_sameShape b.entries (b.entries.length + 1) b.at_ s
    split <;> rename_i e <;> rw [e] at walked
    · refine walked.trans ?_
      unfold bootWalked; split
      · exact .rfl
      · exact startUpEnd_sameShape ..
    · exact walked.trans (imageRead_sameShape ..)

theorem installRecord_sameShape (bs : List Byte) (s : State) : SameShape s (installRecord bs s) := by
  unfold installRecord
  split <;> simp [SameShape, SameSizes, commitWave]

theorem imageLoop_sameShape (left n : Nat) (bs : List Byte) (s : State) : SameShape s (imageLoop left n bs s).1 := by
  induction n generalizing bs s with
  | zero => exact .rfl
  | succ n ih =>
    simp only [imageLoop]
    repeat' split
    rotate_left 6
    · exact (installRecord_sameShape _ s).trans (ih _ _)
    all_goals exact .rfl

theorem imageOver_sameShape (s : State) : SameShape s (imageOver s) :=
  (onBoot_sameShape _ s).trans (bootWalk_sameShape _)

theorem imageDone_sameShape (i : BootImage) (bytes : List Byte) (s : State) : SameShape s (imageDone i bytes s) := by
  simp only [imageDone]
  have judged := imageLoop_sameShape i.left ((i.got ++ bytes).length + 1) (i.got ++ bytes) s
  split <;> rename_i e <;> rw [e] at judged
  · exact judged.trans (imageOver_sameShape _)
  · exact judged.trans ((onBoot_sameShape _ _).trans (imageOver_sameShape _))
  · exact judged.trans (imageRead_sameShape ..)

theorem revertBoot_shaped {s : State} (h : s.shaped = true) : (revertBoot s).shaped = true := by
  refine (putLimits_sameShape _ _).shaped ?_
  rw [shaped_iff] at h ⊢
  obtain ⟨-, others⟩ := h
  exact ⟨rfl, by simpa using others⟩

theorem bootFails_shaped {s : State} (h : s.shaped = true) : (bootFails s).shaped = true :=
  (startUpEnd_sameShape ..).shaped (revertBoot_shaped h)

theorem bootReadDone_shaped (bytes : List Byte) {s : State} (h : s.shaped = true) : (bootReadDone bytes s).shaped = true := by
  unfold bootReadDone
  split
  · exact h
  · split
    · exact (imageDone_sameShape ..).shaped h
    · simp only [entriesDone, headerDone]
      repeat' split
      · exact ((onBoot_sameShape _ s).trans (startBootRead_sameShape ..)).shaped h
      · exact ((onBoot_sameShape _ s).trans (bootWalk_sameShape ..)).shaped h
      · exact bootFails_shaped ((onBoot_sameShape _ s).shaped h)
      · exact bootFails_shaped h
      · exact ((onBoot_sameShape _ s).trans (startBootRead_sameShape ..)).shaped h

/-! ## The surroundings' commands -/

theorem coldReset_shaped (service : Bool) {s : State} (h : s.shaped = true) : (coldReset service s).shaped = true := by
  have wf : memWf (powerLost s).content = true := by
    have wf := ((shaped_iff s).1 h).2.2.2.2.2.2
    unfold powerLost
    repeat' split
    · exact wf
    · exact timeoutContent_content _ s wf
    · exact wf
  exact (shaped_iff _).2 ⟨rfl, List.length_replicate, rfl, rfl, rfl, rfl, wf⟩

theorem upTo_sameShape (s : State) (due : Nat) : SameShape s (s.upTo due) := by simp [SameShape, SameSizes]

theorem onPow_sameShape (f : Power → Power) (s : State) : SameShape s (s.onPow f) := by simp [SameShape, SameSizes]

theorem recordPower_sameShape (k : Nat) (s : State) : SameShape s (recordPower k s) := by simp [SameShape, SameSizes]

/-- What an operation at the flash leaves of a warm reset keeps the sizes; an erase's unknown sector is canonical still. -/
theorem warmStore_shaped {s : State} (h : s.shaped = true) : (warmStore s).shaped = true := by
  refine SameSizes.shaped (s := s) (by simp [SameSizes]) (fun wf => ?_) h
  simp only [warmStore, warmOp]
  repeat' split
  rotate_left 3
  · simpa using wf
  rotate_left
  · exact freeRange_content _ _ _ wf
  all_goals exact wf

/-- The warm reset event empties and refills every fixed collection at its size. -/
theorem warmEvent_shaped {s : State} (h : s.shaped = true) : (warmEvent s).shaped = true := by
  refine SameShape.shaped (recordPower_sameShape ..) (warmStore_shaped ?_)
  rw [shaped_iff] at h ⊢
  obtain ⟨settings, tiles, lanes, pool, channels, -, wf⟩ := h
  simp [Engine.warm, Link.reset, warmFetch, Fetch.reset, settings, tiles, lanes, pool, wf]

/-- A timer's expiry keeps the shape if what it does keeps it. -/
theorem expire_shaped (t : Timer) {f : State → State} (hf : ∀ u : State, u.shaped = true → (f u).shaped = true) {s : State}
    (h : s.shaped = true) : (expire t f s).shaped = true := by
  unfold expire
  split
  · exact h
  · exact hf _ ((upTo_sameShape s _).shaped h)

/-! ### The page link -/

theorem writeNow_sameShape (b : List Byte) (s : State) : SameShape s (writeNow b s) := by
  simp only [writeNow, acceptPacket, refusePacket, openRequest]
  repeat' split
  all_goals simp [SameShape, SameSizes]

theorem readNow_sameShape (s : State) : SameShape s (readNow s) := by
  simp only [readNow, clockOut, buildNotice, emptySource]
  repeat' split
  all_goals simp [SameShape, SameSizes]

theorem packetLeftNow_sameShape (s : State) : SameShape s (packetLeftNow s) := by
  unfold packetLeftNow packetLeaves
  repeat' split
  all_goals simp [SameShape, SameSizes]

theorem radioSend_sameShape (bytes : List Byte) (s : State) : SameShape s (radioSend bytes s) := by
  simp [SameShape, SameSizes, radioSend]

theorem settleFires_sameShape (m : Moderated) (s : State) : SameShape s (settleFires m s) := by
  simp only [settleFires, moderationExpiry, expire]
  repeat' split
  all_goals simp [SameShape, SameSizes]

theorem absoluteFires_sameShape (m : Moderated) (s : State) : SameShape s (absoluteFires m s) := by
  simp only [absoluteFires, moderationExpiry, expire]
  repeat' split
  all_goals simp [SameShape, SameSizes]

/-! ### The radio port -/

theorem headerNow_sameShape (h : List Byte) (s : State) : SameShape s (headerNow h s) := by
  simp only [headerNow]
  repeat' split
  all_goals simp [SameShape, SameSizes]

theorem frameEndNow_sameShape (f : Reception) (payload : List Byte) (s : State) : SameShape s (frameEndNow f payload s) := by
  simp only [frameEndNow]
  repeat' split
  all_goals simp [SameShape, SameSizes, endReception, stageChunk]

/-! ### The keys -/

theorem keyEdgeNow_sameShape (k : Key) (p : Bool) (s : State) : SameShape s (keyEdgeNow k p s) := by
  unfold keyEdgeNow
  repeat' split
  all_goals simp [SameShape, SameSizes]

theorem debounceNow_sameShape (k : Key) (s : State) : SameShape s (debounceNow k s) := by
  simp only [debounceNow, pressNow, pressAction, releaseNow, releaseAction]
  repeat' split
  all_goals simp [SameShape, SameSizes]

theorem longNow_sameShape (k : Key) (s : State) : SameShape s (longNow k s) := by
  simp only [longNow, longAction]
  repeat' split
  all_goals simp [SameShape, SameSizes]

theorem tickNow_sameShape (k : Key) (s : State) : SameShape s (tickNow k s) := by
  unfold tickNow
  split <;> simp [SameShape, SameSizes]

/-! ### The converter, the light and power control -/

theorem conversionNow_sameShape (raw : Nat) (s : State) : SameShape s (conversionNow raw s) := by
  simp only [conversionNow, channelEnds, tempEnds, battEnds, bootBegin, startBootRead]
  repeat' split
  all_goals simp [SameShape, SameSizes]

theorem tempIntervalNow_sameShape (s : State) : SameShape s (tempIntervalNow s) := by
  simp [SameShape, SameSizes, tempIntervalNow]

theorem sampleNow_sameShape (s : State) : SameShape s (sampleNow s) := by simp [SameShape, SameSizes, sampleNow]

theorem followStepNow_sameShape (s : State) : SameShape s (followStepNow s) := by
  unfold followStepNow
  split <;> simp [SameShape, SameSizes]

theorem followSettleNow_sameShape (s : State) : SameShape s (followSettleNow s) := by
  simp [SameShape, SameSizes, followSettleNow]

theorem periodStart_sameShape (ch : LightChannel) (s : State) : SameShape s (periodStart ch s) := by
  unfold periodStart
  repeat' split
  all_goals simp [SameShape, SameSizes]

theorem drainExpires_sameShape (s : State) : SameShape s (drainExpires s) := by
  unfold drainExpires
  split <;> simp [SameShape, SameSizes]

theorem wakeTimerNow_sameShape (s : State) : SameShape s (wakeTimerNow s) := by
  simp only [wakeTimerNow]
  split <;> simp [SameShape, SameSizes]

theorem resleepNow_sameShape (s : State) : SameShape s (resleepNow s) := by
  unfold resleepNow
  split <;> simp [SameShape, SameSizes]

theorem exitEnds_shaped {s : State} (h : s.shaped = true) : (exitEnds s).shaped = true := by
  have up : (if s.pow.waking = [] then resetBlocks s else wakeEnd s).shaped = true := by
    split
    · exact SameShape.shaped (s := s) (by simp [SameShape, SameSizes, resetBlocks]) h
    · exact SameShape.shaped (s := s) (by simp [SameShape, SameSizes]) h
  simp only [exitEnds]
  split
  · exact warmEvent_shaped up
  · exact (onPow_sameShape _ _).shaped up

theorem resetFalls_shaped {s : State} (h : s.shaped = true) : (resetFalls s).shaped = true := by
  unfold resetFalls resetInSleep
  repeat' split
  · exact h
  · exact (onPow_sameShape _ _).shaped h
  · exact (onPow_sameShape _ _).shaped h
  all_goals exact warmEvent_shaped ((onPow_sameShape _ _).shaped h)

/-! ### The flash -/

theorem endOp_sameShape (o : Op) (e : OpEnd) (bytes : List Byte) (s : State) : SameShape s (endOp o e bytes s) := by
  simp [SameShape, SameSizes]

theorem endTimeout_sameShape (o : Op) (s : State) : SameShape s (endTimeout o s) := by
  simp [SameShape, SameSizes]

theorem timeoutContent_shaped (o : Op) {s : State} (h : s.shaped = true) : (timeoutContent o s).shaped = true :=
  SameSizes.shaped (by simp [SameSizes]) (timeoutContent_content o s) h

theorem faultContent_shaped (o : Op) {s : State} (h : s.shaped = true) : (faultContent o s).shaped = true :=
  SameSizes.shaped (by simp [SameSizes]) (faultContent_content o s) h

theorem flashReadNow_shaped {s : State} (h : s.shaped = true) : (flashReadNow s).shaped = true := by
  unfold flashReadNow
  split
  · unfold readEnds
    split
    · exact bootReadDone_shaped _ (SameShape.shaped (s := s) (by simp [SameShape, SameSizes]) h)
    · exact (endOp_sameShape ..).shaped h
  · exact SameShape.shaped (s := s) (by simp [SameShape, SameSizes, batchReadEnds]) h
  · exact h

theorem flashPageNow_shaped {s : State} (h : s.shaped = true) : (flashPageNow s).shaped = true := by
  unfold flashPageNow
  split
  · rename_i src a d arr _ _
    have programmed : (programPage a s.store.page d s).shaped = true :=
      SameSizes.shaped (by simp [SameSizes]) (programPage_content a _ d s) h
    simp only [pageEnds]
    split
    · exact (endOp_sameShape ..).shaped programmed
    · exact SameShape.shaped (by simp [SameShape, SameSizes]) programmed
  · exact h

theorem flashEraseNow_shaped {s : State} (h : s.shaped = true) : (flashEraseNow s).shaped = true := by
  unfold flashEraseNow
  repeat' split
  · refine (endOp_sameShape ..).shaped (SameSizes.shaped (s := s) ?_ (memWf_memErase _ _) h)
    simp [SameSizes, eraseSector]
  all_goals exact h

theorem flashFailureNow_shaped {s : State} (h : s.shaped = true) : (flashFailureNow s).shaped = true := by
  unfold flashFailureNow
  repeat' split
  · exact h
  · exact (endOp_sameShape ..).shaped (faultContent_shaped _ h)
  · exact h

theorem flashSuspendedNow_sameShape (s : State) : SameShape s (flashSuspendedNow s) := by
  unfold flashSuspendedNow
  split <;> simp [SameShape, SameSizes]

theorem noAnswerNow_shaped {s : State} (h : s.shaped = true) : (noAnswerNow s).shaped = true := by
  unfold noAnswerNow
  split
  · exact (endTimeout_sameShape ..).shaped (timeoutContent_shaped _ ((upTo_sameShape _ _).shaped h))
  · exact h

theorem minRunNow_sameShape (s : State) : SameShape s (minRunNow s) := by
  unfold minRunNow
  split <;> simp [SameShape, SameSizes]

theorem overrunOp_shaped (o : Op) {s : State} (h : s.shaped = true) : (overrunOp o s).shaped = true := by
  have later := (upTo_sameShape s (s.overrunAt o.kind)).shaped h
  simp only [overrunOp]
  split
  · exact ((endTimeout_sameShape ..).trans (onBoot_sameShape ..)).shaped later
  · exact (endTimeout_sameShape ..).shaped (timeoutContent_shaped _ later)

theorem batchOverrun_shaped (rd er : Op) {s : State} (h : s.shaped = true) : (batchOverrun rd er s).shaped = true :=
  (endTimeout_sameShape ..).shaped
    (timeoutContent_shaped er (SameShape.shaped (s := s) (by simp [SameShape, SameSizes]) h))

theorem overrunNow_shaped {s : State} (h : s.shaped = true) : (overrunNow s).shaped = true := by
  unfold overrunNow
  split
  · exact overrunOp_shaped _ h
  · exact overrunOp_shaped _ h
  · exact batchOverrun_shaped _ _ ((upTo_sameShape _ _).shaped h)
  · exact h

theorem bootReset_shaped {s : State} (h : s.shaped = true) : (bootReset s).shaped = true := by
  unfold bootReset
  split
  · exact bootFails_shaped h
  · exact h

theorem flashResetNow_shaped {s : State} (h : s.shaped = true) : (flashResetNow s).shaped = true := by
  unfold flashResetNow
  repeat' split
  · exact SameShape.shaped (s := s) (by simp [SameShape, SameSizes]) h
  · exact bootReset_shaped (SameShape.shaped (s := s) (by simp [SameShape, SameSizes]) h)
  · exact h

theorem resetTimeoutNow_shaped {s : State} (h : s.shaped = true) : (resetTimeoutNow s).shaped = true := by
  unfold resetTimeoutNow
  split
  · exact bootReset_shaped (SameShape.shaped (s := s) (by simp [SameShape, SameSizes]) h)
  · exact h

theorem surroundings_shaped (c : Instr) (s : State) (h : s.shaped = true) : (surroundings c s).shaped = true := by
  cases c
  case coldReset => exact coldReset_shaped _ h
  case warmReset => exact resetFalls_shaped h
  case resetRise => exact (onPow_sameShape ..).shaped h
  case writeTransfer => exact (writeNow_sameShape ..).shaped h
  case readTransfer => exact (readNow_sameShape ..).shaped h
  case packetLeft => exact (packetLeftNow_sameShape ..).shaped h
  case unknownTransfer => exact SameShape.shaped (s := s) (by simp only [surroundings]; split <;> simp [SameShape, SameSizes]) h
  case chipSelectFall => exact SameShape.shaped (s := s) (by simp only [surroundings]; split <;> simp [SameShape, SameSizes]) h
  case statusRead => exact (radioSend_sameShape ..).shaped h
  case refetchRead => exact (radioSend_sameShape ..).shaped h
  case chunkHeader =>
    simp only [surroundings]
    split
    · exact (headerNow_sameShape ..).shaped h
    · exact h
  case chunkFrameEnd =>
    simp only [surroundings]
    split
    · exact h
    · exact (frameEndNow_sameShape ..).shaped h
  case radioAttnRise => exact SameShape.shaped (s := s) (by simp only [surroundings]; split <;> simp [SameShape, SameSizes]) h
  case keyEdge => exact (keyEdgeNow_sameShape ..).shaped h
  case debounceExpiry => exact expire_shaped _ (fun u => (debounceNow_sameShape _ u).shaped) h
  case longTimerExpiry => exact expire_shaped _ (fun u => (longNow_sameShape _ u).shaped) h
  case runTick => exact expire_shaped _ (fun u => (tickNow_sameShape _ u).shaped) h
  case frameBoundary =>
    exact expire_shaped _ (fun u => SameShape.shaped (by simp [SameShape, SameSizes])) h
  case conversionEnd => exact (conversionNow_sameShape ..).shaped h
  case tempIntervalExpiry => exact expire_shaped _ (fun u => (tempIntervalNow_sameShape u).shaped) h
  case sampleTimerExpiry => exact expire_shaped _ (fun u => (sampleNow_sameShape u).shaped) h
  case rampStep => exact expire_shaped _ (fun u => SameShape.shaped (by simp [SameShape, SameSizes])) h
  case followStep => exact expire_shaped _ (fun u => (followStepNow_sameShape u).shaped) h
  case followSettleExpiry => exact expire_shaped _ (fun u => (followSettleNow_sameShape u).shaped) h
  case moderationSettleExpiry => exact (settleFires_sameShape ..).shaped h
  case moderationAbsoluteExpiry => exact (absoluteFires_sameShape ..).shaped h
  case drainTimerExpiry => exact expire_shaped _ (fun u => (drainExpires_sameShape u).shaped) h
  case wakeTimerExpiry => exact expire_shaped _ (fun u => (wakeTimerNow_sameShape u).shaped) h
  case resleepTimerExpiry => exact expire_shaped _ (fun u => (resleepNow_sameShape u).shaped) h
  case selfRefreshExitEnd => exact expire_shaped _ (fun _ => exitEnds_shaped) h
  case flashReadDone => exact flashReadNow_shaped h
  case flashPageDone => exact flashPageNow_shaped h
  case flashEraseDone => exact flashEraseNow_shaped h
  case flashFailure => exact flashFailureNow_shaped h
  case flashSuspended => exact (flashSuspendedNow_sameShape s).shaped h
  case suspendNoAnswer => exact noAnswerNow_shaped h
  case minRunPoint => exact (minRunNow_sameShape s).shaped h
  case runningTimeOverrun => exact overrunNow_shaped h
  case flashResetDone => exact flashResetNow_shaped h
  case flashResetTimeout => exact resetTimeoutNow_shaped h
  case pwmPeriodStart => exact (periodStart_sameShape ..).shaped h
  all_goals exact h

/-- Every part of an event keeps the shape. -/
theorem kept_shaped : Kept fun s => s.shaped = true where
  clock _ h := h
  front _ _ h := h
  leave _ _ h := h
  serves k r s := (serve_sameShape k r s).shaped
  others := surroundings_shaped
  judge s := SameShape.shaped (by simp [SameShape, SameSizes])

end Sys2Proof.Machine

namespace Sys2Proof.Claims

open Sys2Proof Sys2Proof.Machine

/-- Settles O6: every part of an event keeps the sizes and the canonical form. -/
theorem stepKeepsShape : Obligations.StepKeepsShape := fun _ _ h ht => kept_shaped.step h ht

end Sys2Proof.Claims
end

section
namespace Sys2Proof.Machine

open Sys2Proof Sys2Proof.Claims

/-! ## Admission -/

/-- Admission depends on the engine alone (R34). -/
theorem admits_congr {s t : State} (h : t.eng = s.eng) : t.admits = s.admits := by
  unfold State.admits State.lanesOccupied
  rw [h]

/-- Without a lane that drives none is occupied. -/
theorem lanesOccupied_eq_zero {s : State} (h : s.drives = false) : s.lanesOccupied = 0 := by
  simpa [State.drives, State.lanesOccupied, List.countP_eq_zero] using h

/-- What a turn without a miss has found: a READY head, an idle panel, no pending tile and room for a record (R72). -/
theorem turnMiss_none {s : State} {d : Dir} (h : s.turnMiss d = none) : ∃ e rest, s.cache.list d = e :: rest ∧
    e.isOpen = false ∧ s.eng.queue = [] ∧ s.drives = false ∧ s.img.held = [] ∧ s.anyPending = false ∧
    s.eng.completions.length < 48 := by
  unfold State.turnMiss at h
  split at h
  · cases h
  · rename_i e rest head
    refine ⟨e, rest, head, ?_⟩
    grind

/-- A panel that turns admits an update (R34, R72). -/
theorem admits_of_turns {s : State} {d : Dir} (h : s.turnMiss d = none) : s.admits = true := by
  obtain ⟨e, rest, -, -, queue, idle, -, -, room⟩ := turnMiss_none h
  simp [State.admits, queue, lanesOccupied_eq_zero idle, room]

/-! ## Properties of the light's judged record and of the engine -/

/-- The part of the light's record that R86 and R107 speak of is as before. -/
def SameJudged (l m : FrontLight) : Prop :=
  m.level = l.level ∧ m.levelTarget = l.levelTarget ∧ m.warmth = l.warmth ∧ m.warmthTarget = l.warmthTarget ∧
    m.claim = l.claim ∧ m.grant = l.grant ∧ m.state = l.state

/-- The judged part of the light's record and the engine are as before. -/
def SameLightEng (s t : State) : Prop := SameJudged s.light t.light ∧ t.eng = s.eng

/-- A property of the light's judged record and of the engine that the operations which change these two keep. From these
few operations `kept` derives that every part of an event keeps it. -/
structure LightEngKept (P : State → Prop) : Prop where
  same : ∀ {s t : State}, SameLightEng s t → P s → P t
  pass : ∀ {s : State}, P s → P (decisionPass s)
  looks : ∀ {s : State}, P s → P (lookPass s)
  cut : ∀ (g : Nat) {s : State}, P s → P (cutLight g s)
  misfit : ∀ {s : State}, P s → P (judgeEngineClaim s)
  report : ∀ {s : State}, P s → P (reportClaim s)
  ramp : ∀ {s : State}, P s → P (rampStepNow s)
  targets : ∀ {s : State} (t : State), P s → t.light.claim = s.light.claim → t.light.grant = s.light.grant →
    t.eng = s.eng → P (targetsChanged t)
  appends : ∀ (id : Nat) (region : Rect) (m : Mode) (np : Bool) (o : Origin) (place : Nat) {s : State}, s.admits = true →
    P s → P (appendUpdate id region m np o place s)
  boundary : ∀ {s : State}, P s → P (boundaryNow s)
  abort : ∀ (id : Option Nat) {s : State}, P s → P (abortNow id s)
  emptied : ∀ {s t : State}, SameJudged s.light t.light → t.eng = { s.eng with completions := [] } → P s → P t
  warm : ∀ {s t : State}, SameJudged s.light t.light → t.eng = s.eng.warm → P s → P t
  reset : ∀ {s : State}, s.light = FrontLight.reset → s.eng = Engine.reset → P s

namespace LightEngKept

variable {P : State → Prop} (kept : LightEngKept P)
include kept

/-! ### Operations that change neither -/

theorem onPow (f : Power → Power) {s : State} (h : P s) : P (s.onPow f) := kept.same (by simp [SameLightEng, SameJudged]) h

theorem recordPower (k : Nat) {s : State} (h : P s) : P (recordPower k s) :=
  kept.same (by simp [SameLightEng, SameJudged]) h

theorem creditPoint {s : State} (h : P s) : P (creditPoint s) := kept.same (by simp [SameLightEng, SameJudged]) h

theorem wakeSource (w : WakeSource) {s : State} (h : P s) : P (wakeSource w s) :=
  kept.same (by simp [SameLightEng, SameJudged]) h

theorem withdrawCredits {s : State} (h : P s) : P (withdrawCredits s) := kept.same (by simp [SameLightEng, SameJudged]) h

/-! ### The book store and the fetch engine -/

theorem sendStoreClaim (o : Op) {s : State} (h : P s) : P (sendStoreClaim o s) :=
  kept.pass (kept.same (s := s) (by simp [SameLightEng, SameJudged]) h)

theorem selectLoop (n : Nat) {s : State} (h : P s) : P (selectLoop n s) := by
  induction n generalizing s with
  | zero => exact h
  | succ n ih =>
    simp only [Machine.selectLoop]
    repeat' split
    · exact h
    · exact ih (kept.same (s := s) (by simp [SameLightEng, SameJudged]) h)
    · exact kept.sendStoreClaim _ (kept.same (s := s) (by simp [SameLightEng, SameJudged]) h)
    · exact h

theorem selectPoint {s : State} (h : P s) : P (selectPoint s) := kept.selectLoop _ h

theorem scheduleLoop (n : Nat) {s : State} (h : P s) : P (scheduleLoop n s) := by
  induction n generalizing s with
  | zero => exact h
  | succ n ih =>
    simp only [Machine.scheduleLoop]
    repeat' split
    · exact h
    · exact ih (kept.same (s := s) (by simp [SameLightEng, SameJudged]) h)
    · exact kept.same (s := s) (by simp [SameLightEng, SameJudged]) h

theorem schedulePoint {s : State} (h : P s) : P (schedulePoint s) := kept.selectPoint (kept.scheduleLoop _ h)

theorem afterOutcome (o : Op) {s : State} (h : P s) : P (afterOutcome o s) := by
  unfold Machine.afterOutcome
  split
  · exact kept.schedulePoint h
  · exact kept.selectPoint h

theorem clearOp (f : FlashState) {s : State} (h : P s) : P (clearOp f s) := by
  have cleared {f : Store → Store} : P (s.onStore f) := kept.same (by simp [SameLightEng, SameJudged]) h
  simp only [Machine.clearOp]
  split
  · exact cleared
  · exact kept.pass cleared

theorem endOp (o : Op) (e : OpEnd) (bytes : List Byte) {s : State} (h : P s) : P (endOp o e bytes s) :=
  kept.afterOutcome o (kept.same (by simp [SameLightEng, SameJudged]) (kept.clearOp .idle h))

theorem endTimeout (o : Op) {s : State} (h : P s) : P (endTimeout o s) :=
  kept.afterOutcome o (kept.same (by simp [SameLightEng, SameJudged]) (kept.clearOp .resetting h))

theorem batchOverrun (rd er : Op) {s : State} (h : P s) : P (batchOverrun rd er s) :=
  kept.endTimeout er (kept.same (by simp [SameLightEng, SameJudged]) h)

theorem resetOver (f : FlashState) {s : State} (h : P s) : P (resetOver f s) := by
  unfold Machine.resetOver
  split
  · exact kept.same (by simp [SameLightEng, SameJudged]) h
  · exact kept.same (by simp [SameLightEng, SameJudged]) (kept.clearOp f h)

theorem goOffline {s : State} (h : P s) : P (goOffline s) :=
  kept.schedulePoint (kept.same (by simp [SameLightEng, SameJudged]) (kept.resetOver .offline h))

theorem cutOp (c : Nat) {s : State} (h : P s) : P (cutOp c s) := by
  unfold Machine.cutOp
  repeat' split
  rotate_left 3
  · exact kept.pass (kept.same (s := s) (by simp [SameLightEng, SameJudged]) h)
  all_goals exact kept.same (s := s) (by simp [SameLightEng, SameJudged]) h

theorem failChannel (c : Nat) (r : FailReason) {s : State} (h : P s) : P (failChannel c r s) :=
  kept.schedulePoint (kept.cutOp c (kept.same (by simp [SameLightEng, SameJudged]) h))

theorem foundBad (c i : Nat) {s : State} (h : P s) : P (foundBad c i s) := by
  unfold Machine.foundBad
  split
  · exact kept.failChannel c _ (kept.same (by simp [SameLightEng, SameJudged]) h)
  · exact kept.same (by simp [SameLightEng, SameJudged]) h

/-! ### The supply budget -/

theorem newLimit (limit : Nat) {s : State} (h : P s) : P (newLimit limit s) := by
  have limited : P { s with sup := { s.sup with limit := limit } } := kept.same (s := s) (by simp [SameLightEng, SameJudged]) h
  have judged : P (judgeStoreClaim (judgeEngineClaim { s with sup := { s.sup with limit := limit } })) :=
    kept.same (by simp [SameLightEng, SameJudged]) (kept.misfit limited)
  have passed (u : State) (hu : P u) : P (decisionPass (cutToLimit u)) := by
    refine kept.pass ?_
    unfold cutToLimit
    split
    · exact kept.cut _ hu
    · exact hu
  have looked (b : Bool) (u : State) (hu : P u) : P (if b = true then lookPass u else u) := by
    split
    · exact kept.looks hu
    · exact hu
  have selected (b : Bool) (u : State) (hu : P u) : P (if b = true then Machine.selectPoint u else u) := by
    split
    · exact kept.selectPoint hu
    · exact hu
  have unpaused (b : Bool) (u : State) (hu : P u) : P (unpause b u) := by
    unfold unpause
    split
    · exact kept.schedulePoint (kept.same (s := u) (by simp [SameLightEng, SameJudged]) hu)
    · exact hu
  exact unpaused _ _ (selected _ _ (looked _ _ (passed _ judged)))

theorem battSample (raw : Nat) {s : State} (h : P s) : P (battSample raw s) := by
  simp only [Machine.battSample]
  refine kept.newLimit _ ?_
  split <;> exact kept.same (s := s) (by simp [SameLightEng, SameJudged]) h

theorem putLimits (pts : List (Nat × Nat)) {s : State} (h : P s) : P (putLimits pts s) := by
  unfold Machine.putLimits
  have put : P { s with sup := { s.sup with limitTable := pts } } := kept.same (by simp [SameLightEng, SameJudged]) h
  split
  · exact put
  · exact kept.newLimit _ put

/-! ### Turns and keys -/

/-- Only an idle panel turns, and that admits the turn's update (R72, R75). -/
theorem turnAttempt (d : Dir) (o : Source) (place : Nat) {s : State} (h : P s) : P (turnAttempt d o place s) := by
  unfold Machine.turnAttempt
  split
  · rename_i e rest turns _
    have exchanged : P (exchange d e rest s) := kept.same (by simp [SameLightEng, SameJudged]) h
    have appended := kept.appends 0 wholePanel (turnUpdateMode o e.turnMode) false .cache place
      ((admits_congr (by simp)).trans (admits_of_turns turns)) exchanged
    exact kept.looks (kept.same (by simp [SameLightEng, SameJudged]) appended)
  · exact kept.same (by simp [SameLightEng, SameJudged]) h

theorem keyTurn (k : Key) (d : Dir) {s : State} (h : P s) : P (keyTurn k d s) := by
  simp only [Machine.keyTurn]
  split
  · exact kept.same (by simp [SameLightEng, SameJudged]) (kept.turnAttempt d .key s.nextPlace h)
  · exact kept.turnAttempt d .key s.nextPlace h

theorem runTickNow (k : Key) (d : Dir) (n : Nat) {s : State} (h : P s) : P (runTickNow k d n s) := by
  simp only [Machine.runTickNow]
  repeat' split
  · exact kept.same (by simp [SameLightEng, SameJudged]) h
  · exact kept.same (by simp [SameLightEng, SameJudged]) h
  · exact kept.same (by simp [SameLightEng, SameJudged]) (kept.turnAttempt d .run s.nextPlace h)
  · exact kept.same (by simp [SameLightEng, SameJudged]) (kept.turnAttempt d .run s.nextPlace h)

theorem settleRun (d : Dir) {s : State} (h : P s) : P (settleRun d s) := by
  unfold Machine.settleRun
  split
  · rename_i admits
    exact kept.looks (kept.appends _ _ _ _ _ _ admits h)
  · exact kept.same (by simp [SameLightEng, SameJudged]) h

theorem toggleLight {s : State} (h : P s) : P (toggleLight s) := by
  unfold Machine.toggleLight
  split <;> exact kept.targets _ h rfl rfl rfl

/-! ### Power control -/

theorem restoreLight {s : State} (h : P s) : P (restoreLight s) := by
  unfold Machine.restoreLight
  split
  · exact h
  · exact kept.targets _ h rfl rfl rfl

theorem followResume {s : State} (h : P s) : P (followResume s) := by
  rw [followResume_eq]
  exact kept.same (by simp [SameLightEng, SameJudged]) h

theorem lightWake {s : State} (h : P s) : P (lightWake s) := by
  rw [lightWake_eq]
  exact kept.same (by simp [SameLightEng, SameJudged]) h

theorem drainStart (sec : Nat) (b : Bool) {s : State} (h : P s) : P (drainStart sec b s) := by
  refine kept.withdrawCredits ?_
  simp only [lightDrainStart]
  split
  · exact kept.targets _ h rfl rfl rfl
  · exact kept.same (s := s) (by simp [SameLightEng, SameJudged]) h

theorem drainReturn (p : PowerState) {s : State} (h : P s) : P (drainReturn p s) :=
  kept.schedulePoint (kept.creditPoint (kept.restoreLight (kept.followResume (kept.onPow _ h))))

theorem drainCancel {s : State} (h : P s) : P (drainCancel s) :=
  kept.recordPower _ (kept.drainReturn _ (kept.onPow _ h))

theorem drainFail {s : State} (h : P s) : P (drainFail s) := kept.recordPower _ (kept.drainReturn _ (kept.onPow _ h))

theorem hostArrives {s : State} (h : P s) : P (hostArrives s) := by
  unfold Machine.hostArrives
  split
  · exact kept.same (by simp [SameLightEng, SameJudged]) h
  · exact kept.drainCancel h
  · exact h

theorem wakeTurn (k : Key) (d : Dir) {s : State} (h : P s) : P (wakeTurn k d s) := by
  simp only [Machine.wakeTurn]
  repeat' split
  · exact kept.same (by simp [SameLightEng, SameJudged]) (kept.keyTurn k d h)
  · exact kept.keyTurn k d h
  · exact h

theorem wakeLight {s : State} (h : P s) : P (wakeLight s) := by
  simp only [Machine.wakeLight]
  repeat' split
  · exact kept.same (by simp [SameLightEng, SameJudged]) (kept.restoreLight h)
  · exact kept.same (by simp [SameLightEng, SameJudged]) (kept.toggleLight h)
  · exact h

theorem wakeAction (w : WakeSource) {s : State} (h : P s) : P (wakeAction w s) := by
  cases w
  case fwd => exact kept.wakeTurn .fwd .forward h
  case back => exact kept.wakeTurn .back .back h
  case light => exact kept.wakeLight h
  case timer => exact kept.same (s := s) (by simp [Machine.wakeAction, SameLightEng, SameJudged]) h
  all_goals exact h

theorem wakeActions (ws : List WakeSource) {s : State} (h : P s) : P (ws.foldl (fun s w => Machine.wakeAction w s) s) := by
  induction ws generalizing s with
  | nil => exact h
  | cons w ws ih => exact ih (kept.wakeAction w h)

theorem wakeEnd {s : State} (h : P s) : P (wakeEnd s) := by
  have up : P (wakeBlocks s) := kept.lightWake (kept.same (s := s) (by simp [SameLightEng, SameJudged]) h)
  unfold Machine.wakeEnd
  exact kept.onPow _ (kept.schedulePoint (kept.creditPoint (kept.wakeActions s.pow.waking up)))

theorem enterSleep {s : State} (h : P s) : P (enterSleep s) := by
  have asleep : P (sleepBlocks s) := kept.same (by simp [SameLightEng, SameJudged, sleepBlocks, lightSleep]) h
  simp only [Machine.enterSleep]
  split
  · exact kept.wakeSource _ (kept.recordPower _ (kept.onPow _ asleep))
  · exact kept.recordPower _ (kept.onPow _ asleep)

theorem judgePower {s : State} (h : P s) : P (judgePower s) := by
  have drained : P (drainJudge s) := by
    unfold drainJudge
    split
    · exact kept.enterSleep h
    · exact h
  exact kept.same (by simp [SameLightEng, SameJudged, Machine.judgePower]) drained

/-! ### Requests -/

theorem respond (r : Request) (c : Code) (b : List Byte) {s : State} (h : P s) : P (respond r c b s) :=
  kept.same (by simp [SameLightEng, SameJudged]) h

theorem putFollow (b : List Byte) {s : State} (h : P s) : P (putFollow b s) := by
  simp only [Machine.putFollow]
  split <;> split <;> exact kept.same (s := s) (by simp [SameLightEng, SameJudged]) h

theorem storeSetting (st : Setting) (v : Int) {s : State} (h : P s) : P (storeSetting st v s) := by
  have stored : P (linkSettings st (s.putSetting st (s.clampSetting st v))) := by
    unfold linkSettings
    repeat' split
    all_goals exact kept.same (s := s) (by simp [SameLightEng, SameJudged, State.putSetting]) h
  unfold Machine.storeSetting settingEffect
  split
  · exact kept.creditPoint stored
  · exact kept.creditPoint stored
  · exact kept.report stored
  · exact kept.same (by simp [SameLightEng, SameJudged]) stored
  · exact kept.same (by simp [SameLightEng, SameJudged]) stored
  · exact stored

theorem joinOrFault (r : Request) (k : OpKind) {s : State} (h : P s) : P (joinOrFault r k s) := by
  unfold Machine.joinOrFault
  split
  · exact kept.respond _ _ _ h
  · exact kept.selectPoint (kept.same (by simp [SameLightEng, SameJudged]) h)

theorem leaveInbound (st : Stream) {s : State} (h : P s) : P (leaveInbound st s) := 
  kept.same (by simp [SameLightEng, SameJudged, Machine.leaveInbound]) h

theorem serves (k : ReqKind) (r : Request) {s : State} (h : P s) : P (serve k r s) := by
  cases k
  case update =>
    simp only [serve, serveUpdate]
    split
    · exact kept.respond _ _ _ h
    · rename_i m checked
      have admits : s.admits = true := by
        unfold State.updateCheck at checked
        grind
      exact kept.looks (kept.respond _ _ _ (kept.appends _ _ _ _ _ _ admits h))
  case abort =>
    simp only [serve, serveAbort]
    split
    · exact kept.respond _ _ _ h
    · exact kept.respond _ _ _ (kept.abort _ h)
  case turn =>
    simp only [serve, serveTurn]
    split
    · exact kept.respond _ _ _ h
    · exact kept.respond _ _ _ (kept.turnAttempt _ _ _ h)
  case light => exact kept.respond _ _ _ (kept.targets _ h rfl rfl rfl)
  case follow =>
    simp only [serve, serveFollow]
    split
    · exact kept.respond _ _ _ h
    · exact kept.respond _ _ _ (kept.putFollow _ h)
  case fetchArm =>
    simp only [serve, serveFetchArm]
    repeat' split
    rotate_left 3
    · exact kept.schedulePoint (kept.same (s := s) (by simp [SameLightEng, SameJudged]) h)
    all_goals exact kept.respond _ _ _ h
  case storeRead | storeProgram | storeErase =>
    simp only [serve, serveStoreRead, serveStoreProgram, serveStoreErase]
    split
    · exact kept.respond _ _ _ h
    exact kept.joinOrFault _ _ h
  case set =>
    simp only [serve, serveSet]
    split
    · exact kept.respond _ _ _ h
    · exact kept.respond _ _ _ (kept.storeSetting _ _ h)
  case limits =>
    simp only [serve, serveLimits]
    split
    · exact kept.respond _ _ _ (kept.putLimits _ h)
    · exact kept.respond _ _ _ h
  case sleep =>
    simp only [serve, serveSleep]
    repeat' split
    rotate_left
    · exact kept.drainStart _ _ (kept.respond _ _ _ h)
    · exact kept.drainStart _ _ (kept.respond _ _ _ h)
    all_goals exact kept.respond _ _ _ h
  case wake => exact kept.respond _ _ _ (kept.hostArrives h)
  all_goals
    refine kept.same (s := s) ?_ h
    simp only [serve, servePixels, serveToneMap, servePageTag, serveCacheOpen, serveCacheReady, serveCacheDrop,
      serveWaveBegin, serveWaveData, serveWaveEnd, serveWaveDrop, serveBands, serveFetchOpen, serveFetchSums,
      serveFetchClose, serveFetchStatus, serveGet, serveStatus, serveDoze]
    repeat' split
    all_goals simp [SameLightEng, SameJudged, writeEntry, putToneMap, openEntry, dropOne, dropList, openWave, fillWave,
      commitWave, putBands, closeArmed, freeCredits]

/-! ### The boot table -/

theorem onBoot (f : Boot → Boot) {s : State} (h : P s) : P (onBoot f s) := kept.onPow _ h

theorem startUpEnd (o : BootOutcome) (n : Nat) {s : State} (h : P s) : P (startUpEnd o n s) :=
  kept.same (by simp [SameLightEng, SameJudged, Machine.startUpEnd]) h

theorem startBootRead (a n : Nat) {s : State} (h : P s) : P (startBootRead a n s) :=
  kept.same (by simp [SameLightEng, SameJudged, Machine.startBootRead]) h

theorem imageRead (a n : Nat) (got : List Byte) {s : State} (h : P s) : P (imageRead a n got s) :=
  kept.startBootRead _ _ (kept.onBoot _ h)

theorem bootEntry (n : Nat) (d : List Byte) {s : State} (h : P s) : P (bootEntry n d s) := by
  unfold Machine.bootEntry bootSetting bootBands skipEntry
  have skipped {f : Boot → Boot} : P (Machine.onBoot f s) := kept.onBoot _ h
  repeat' split
  · exact kept.storeSetting _ _ h
  rotate_left 2
  · exact kept.same (by simp [SameLightEng, SameJudged, putToneMap]) h
  rotate_left
  · exact kept.same (by simp [SameLightEng, SameJudged, putBands]) h
  rotate_left
  · exact kept.putLimits _ h
  rotate_left
  · exact kept.putFollow _ h
  all_goals exact skipped

theorem walkLoop (entries : List Byte) (n k : Nat) {s : State} (h : P s) : P (walkLoop entries n k s).1 := by
  induction n generalizing k s with
  | zero => exact h
  | succ n ih =>
    simp only [Machine.walkLoop, skipEntry, badImage, bootAt]
    repeat' split
    · exact h
    · exact kept.onBoot _ h
    · exact kept.onBoot _ h
    · exact h
    · exact ih _ (kept.onBoot _ h)
    · exact ih _ (kept.onBoot _ h)
    · exact ih _ (kept.onBoot _ h)
    · exact ih _ h
    · exact kept.onBoot _ h
    · exact ih _ (kept.bootEntry _ _ h)

theorem bootWalk {s : State} (h : P s) : P (bootWalk s) := by
  unfold Machine.bootWalk
  split
  · exact h
  · rename_i b _
    have walked := kept.walkLoop b.entries (b.entries.length + 1) b.at_ h
    split <;> rename_i e <;> rw [e] at walked
    · unfold bootWalked
      split
      · exact walked
      · exact kept.startUpEnd _ _ walked
    · exact kept.imageRead _ _ _ walked

theorem imageLoop (left n : Nat) (bs : List Byte) {s : State} (h : P s) : P (imageLoop left n bs s).1 := by
  induction n generalizing bs s with
  | zero => exact h
  | succ n ih =>
    simp only [Machine.imageLoop]
    repeat' split
    rotate_left 6
    · refine ih _ (kept.same (s := s) ?_ h)
      unfold installRecord
      split <;> simp [SameLightEng, SameJudged, commitWave]
    all_goals exact h

theorem imageOver {s : State} (h : P s) : P (imageOver s) := kept.bootWalk (kept.onBoot _ h)

theorem imageDone (i : BootImage) (bytes : List Byte) {s : State} (h : P s) : P (imageDone i bytes s) := by
  simp only [Machine.imageDone]
  have judged := kept.imageLoop i.left ((i.got ++ bytes).length + 1) (i.got ++ bytes) h
  split <;> rename_i e <;> rw [e] at judged
  · exact kept.imageOver judged
  · exact kept.imageOver (kept.onBoot _ judged)
  · exact kept.imageRead _ _ _ judged

theorem bootFails {s : State} (h : P s) : P (bootFails s) :=
  kept.startUpEnd _ _ (kept.putLimits _ (kept.same (s := s) (by simp [SameLightEng, SameJudged]) h))

theorem bootReadDone (bytes : List Byte) {s : State} (h : P s) : P (bootReadDone bytes s) := by
  unfold Machine.bootReadDone
  repeat' split
  · exact h
  · exact kept.imageDone _ _ h
  · simp only [entriesDone]
    repeat' split
    · exact kept.startBootRead _ _ (kept.onBoot _ h)
    · exact kept.bootWalk (kept.onBoot _ h)
    · exact kept.bootFails (kept.onBoot _ h)
  · simp only [headerDone]
    split
    · exact kept.bootFails h
    · exact kept.startBootRead _ _ (kept.onBoot _ h)

theorem bootReset {s : State} (h : P s) : P (bootReset s) := by
  unfold Machine.bootReset
  split
  · exact kept.bootFails h
  · exact h

/-! ### The surroundings' commands -/

theorem upTo (due : Nat) {s : State} (h : P s) : P (s.upTo due) := kept.same (by simp [SameLightEng, SameJudged]) h

theorem expire (t : Timer) {f : State → State} (hf : ∀ u : State, P u → P (f u)) {s : State} (h : P s) :
    P (expire t f s) := by
  unfold Machine.expire
  split
  · exact h
  · exact hf _ (kept.upTo _ h)

theorem warmStore {s : State} (h : P s) : P (warmStore s) := by
  simp only [Machine.warmStore, warmOp]
  repeat' split
  rotate_left 3
  · exact kept.clearOp _ (kept.same (s := s) (by simp [SameLightEng, SameJudged]) h)
  all_goals exact kept.same (s := s) (by simp [SameLightEng, SameJudged]) h

theorem warmEvent {s : State} (h : P s) : P (warmEvent s) := by
  simp only [Machine.warmEvent]
  exact kept.recordPower _ (kept.warmStore (kept.warm (s := s) (by simp [SameJudged, warmLight, rampArm_eq]) (by simp) h))

theorem coldReset (service : Bool) (s : State) : P (coldReset service s) := kept.reset rfl rfl

theorem writeNow (b : List Byte) {s : State} (h : P s) : P (writeNow b s) := by
  unfold Machine.writeNow
  repeat' split
  rotate_left 3
  · refine kept.same ?_ (kept.hostArrives h)
    simp only [acceptPacket, refusePacket, openRequest]
    repeat' split
    all_goals simp [SameLightEng, SameJudged]
  all_goals exact kept.same (s := s) (by simp [SameLightEng, SameJudged]) h

theorem readNow {s : State} (h : P s) : P (readNow s) := by
  unfold Machine.readNow
  repeat' split
  rotate_left 2
  · rename_i k _ _
    cases k
    case done => exact kept.emptied (s := s) (by simp [SameJudged, clockOut, buildNotice, emptySource]) rfl h
    all_goals exact kept.same (s := s) (by simp [SameLightEng, SameJudged, clockOut, buildNotice, emptySource]) h
  all_goals exact kept.same (s := s) (by simp [SameLightEng, SameJudged, clockOut]) h

theorem packetLeftNow {s : State} (h : P s) : P (packetLeftNow s) := by
  refine kept.same (s := s) ?_ h
  unfold Machine.packetLeftNow packetLeaves
  repeat' split
  all_goals simp [SameLightEng, SameJudged]

theorem settleFires (m : Moderated) {s : State} (h : P s) : P (settleFires m s) := by
  refine kept.same (s := s) ?_ h
  simp only [Machine.settleFires, moderationExpiry, Machine.expire]
  repeat' split
  all_goals simp [SameLightEng, SameJudged]

theorem absoluteFires (m : Moderated) {s : State} (h : P s) : P (absoluteFires m s) := by
  refine kept.same (s := s) ?_ h
  simp only [Machine.absoluteFires, moderationExpiry, Machine.expire]
  repeat' split
  all_goals simp [SameLightEng, SameJudged]

theorem headerNow (b : List Byte) {s : State} (h : P s) : P (headerNow b s) := by
  simp only [Machine.headerNow]
  split
  rotate_left 4
  · exact kept.foundBad _ _ (kept.same (s := s) (by simp [SameLightEng, SameJudged]) h)
  all_goals exact kept.same (s := s) (by simp [SameLightEng, SameJudged]) h

theorem frameEndNow (f : Reception) (payload : List Byte) {s : State} (h : P s) : P (frameEndNow f payload s) := by
  have ended : P (endReception s) := kept.same (s := s) (by simp [SameLightEng, SameJudged, endReception]) h
  simp only [Machine.frameEndNow]
  repeat' split
  · exact kept.schedulePoint (kept.same (by simp [SameLightEng, SameJudged, stageChunk]) ended)
  · exact kept.foundBad _ _ (kept.same (by simp [SameLightEng, SameJudged]) ended)
  · exact kept.same (by simp [SameLightEng, SameJudged]) ended

theorem keyEdgeNow (k : Key) (p : Bool) {s : State} (h : P s) : P (keyEdgeNow k p s) := by
  refine kept.same (s := s) ?_ h
  unfold Machine.keyEdgeNow
  repeat' split
  all_goals simp [SameLightEng, SameJudged]

theorem onKey (k : Key) (f : KeyScan → KeyScan) {s : State} (h : P s) : P (s.onKey k f) :=
  kept.same (by simp [SameLightEng, SameJudged]) h

theorem appendKey (k : Key) (e : KeyEvent) {s : State} (h : P s) : P (appendKey k e s) :=
  kept.same (by simp [SameLightEng, SameJudged]) h

theorem debounceNow (k : Key) {s : State} (h : P s) : P (debounceNow k s) := by
  simp only [Machine.debounceNow, pressNow, pressAction, releaseNow, releaseAction]
  have pressed : ∀ e f, P (Machine.appendKey k e ((s.onKey k fun ks => { ks with debounce := none }).onKey k f)) :=
    fun e f => kept.appendKey _ _ (kept.onKey _ _ (kept.onKey _ _ h))
  repeat' split
  · exact kept.onKey _ _ h
  · exact kept.wakeSource _ (pressed _ _)
  · exact pressed _ _
  · exact kept.keyTurn _ _ (pressed _ _)
  · exact pressed _ _
  · exact pressed _ _
  · exact kept.settleRun _ (pressed _ _)
  · exact pressed _ _
  · exact kept.toggleLight (pressed _ _)
  · exact pressed _ _

theorem longNow (k : Key) {s : State} (h : P s) : P (longNow k s) := by
  simp only [Machine.longNow, longAction]
  repeat' split
  rotate_left
  · exact kept.runTickNow _ _ _ (kept.appendKey _ _ (kept.onKey _ _ (kept.onKey _ _ h)))
  rotate_left
  · exact kept.onKey _ _ h
  all_goals exact kept.appendKey _ _ (kept.onKey _ _ (kept.onKey _ _ h))

theorem tickNow (k : Key) {s : State} (h : P s) : P (tickNow k s) := by
  unfold Machine.tickNow
  split
  · exact h
  · exact kept.runTickNow _ _ _ h

theorem channelEnds (c : Chan) (raw : Nat) {s : State} (h : P s) : P (channelEnds c raw s) := by
  cases c
  case temp =>
    simp only [Machine.channelEnds, tempEnds]
    split
    · exact kept.looks (kept.same (by simp [SameLightEng, SameJudged]) h)
    · exact kept.same (by simp [SameLightEng, SameJudged]) h
  case batt =>
    simp only [Machine.channelEnds, battEnds, bootBegin]
    repeat' split
    · exact kept.startBootRead _ _ (kept.onPow _ (kept.battSample _ h))
    · exact kept.battSample _ h
    · exact kept.same (by simp [SameLightEng, SameJudged]) (kept.battSample raw h)
  case amb =>
    refine kept.same ?_ h
    simp only [Machine.channelEnds, ambReading, settleUpdate]
    repeat' split
    all_goals simp [SameLightEng, SameJudged]

theorem conversionNow (raw : Nat) {s : State} (h : P s) : P (conversionNow raw s) := by
  simp only [Machine.conversionNow]
  split
  · exact h
  · rename_i c due _
    have freed : P { s.upTo due with conv := { (s.upTo due).conv with busy := none, last := c } } :=
      kept.same (s := s) (by simp [SameLightEng, SameJudged]) h
    exact kept.same (by simp [SameLightEng, SameJudged]) (kept.channelEnds c raw freed)

theorem tempIntervalNow {s : State} (h : P s) : P (tempIntervalNow s) :=
  kept.same (s := s) (by simp [SameLightEng, SameJudged, Machine.tempIntervalNow]) h

theorem sampleNow {s : State} (h : P s) : P (sampleNow s) :=
  kept.same (s := s) (by simp [SameLightEng, SameJudged, Machine.sampleNow]) h

theorem followStepNow {s : State} (h : P s) : P (followStepNow s) := by
  refine kept.same (s := s) ?_ h
  unfold Machine.followStepNow
  split <;> simp [SameLightEng, SameJudged]

theorem followSettleNow {s : State} (h : P s) : P (followSettleNow s) := kept.targets _ h rfl rfl rfl

theorem periodStart (ch : LightChannel) {s : State} (h : P s) : P (periodStart ch s) := by
  refine kept.same (s := s) ?_ h
  unfold Machine.periodStart
  repeat' split
  all_goals simp [SameLightEng, SameJudged]

theorem drainExpires {s : State} (h : P s) : P (drainExpires s) := by
  unfold Machine.drainExpires
  split
  · exact kept.drainFail h
  · exact kept.onPow _ h

theorem wakeTimerNow {s : State} (h : P s) : P (wakeTimerNow s) := by
  simp only [Machine.wakeTimerNow]
  split
  · exact kept.wakeSource _ (kept.onPow _ h)
  · exact kept.onPow _ h

theorem resleepNow {s : State} (h : P s) : P (resleepNow s) := by
  unfold Machine.resleepNow
  split
  · exact kept.enterSleep (kept.withdrawCredits h)
  · exact kept.onPow _ h

theorem exitEnds {s : State} (h : P s) : P (exitEnds s) := by
  have up : P (if s.pow.waking = [] then resetBlocks s else Machine.wakeEnd s) := by
    split
    · exact kept.lightWake (kept.same (s := s) (by simp [SameLightEng, SameJudged]) h)
    · exact kept.wakeEnd h
  simp only [Machine.exitEnds]
  split
  · exact kept.warmEvent up
  · exact kept.onPow _ up

theorem resetFalls {s : State} (h : P s) : P (resetFalls s) := by
  unfold Machine.resetFalls resetInSleep
  repeat' split
  · exact h
  · exact kept.onPow _ h
  · exact kept.onPow _ h
  all_goals exact kept.warmEvent (kept.onPow _ h)

theorem timeoutContent (o : Op) {s : State} (h : P s) : P (timeoutContent o s) :=
  kept.same (by simp [SameLightEng, SameJudged]) h

theorem flashReadNow {s : State} (h : P s) : P (flashReadNow s) := by
  unfold Machine.flashReadNow readEnds batchReadEnds
  repeat' split
  · exact kept.bootReadDone _ (kept.clearOp _ h)
  · exact kept.endOp _ _ _ h
  · exact kept.same (s := s) (by simp [SameLightEng, SameJudged]) h
  · exact h

theorem flashPageNow {s : State} (h : P s) : P (flashPageNow s) := by
  unfold Machine.flashPageNow
  split
  · simp only [pageEnds]
    split
    · exact kept.endOp _ _ _ (kept.same (s := s) (by simp [SameLightEng, SameJudged]) h)
    · exact kept.same (s := s) (by simp [SameLightEng, SameJudged]) h
  · exact h

theorem flashEraseNow {s : State} (h : P s) : P (flashEraseNow s) := by
  unfold Machine.flashEraseNow
  repeat' split
  · exact kept.endOp _ _ _ (kept.same (s := s) (by simp [SameLightEng, SameJudged, eraseSector]) h)
  all_goals exact h

theorem flashFailureNow {s : State} (h : P s) : P (flashFailureNow s) := by
  unfold Machine.flashFailureNow
  repeat' split
  · exact h
  · exact kept.endOp _ _ _ (kept.same (s := s) (by simp [SameLightEng, SameJudged]) h)
  · exact h

theorem flashSuspendedNow {s : State} (h : P s) : P (flashSuspendedNow s) := by
  unfold Machine.flashSuspendedNow
  split <;> exact kept.same (s := s) (by simp [SameLightEng, SameJudged]) h

theorem noAnswerNow {s : State} (h : P s) : P (noAnswerNow s) := by
  unfold Machine.noAnswerNow
  split
  · exact kept.endTimeout _ (kept.timeoutContent _ (kept.upTo _ h))
  · exact h

theorem minRunNow {s : State} (h : P s) : P (minRunNow s) := by
  unfold Machine.minRunNow
  split <;> exact kept.same (s := s) (by simp [SameLightEng, SameJudged]) h

theorem overrunOp (o : Op) {s : State} (h : P s) : P (overrunOp o s) := by
  simp only [Machine.overrunOp]
  split
  · exact kept.onBoot _ (kept.endTimeout _ (kept.upTo _ h))
  · exact kept.endTimeout _ (kept.timeoutContent _ (kept.upTo _ h))

theorem overrunNow {s : State} (h : P s) : P (overrunNow s) := by
  unfold Machine.overrunNow
  split
  · exact kept.overrunOp _ h
  · exact kept.overrunOp _ h
  · exact kept.batchOverrun _ _ (kept.upTo _ h)
  · exact h

theorem flashResetNow {s : State} (h : P s) : P (flashResetNow s) := by
  unfold Machine.flashResetNow
  repeat' split
  · exact kept.afterOutcome _ (kept.resetOver _ h)
  · exact kept.bootReset (kept.selectPoint (kept.resetOver _ h))
  · exact h

theorem resetTimeoutNow {s : State} (h : P s) : P (resetTimeoutNow s) := by
  unfold Machine.resetTimeoutNow
  split
  · exact kept.bootReset (kept.goOffline (kept.upTo _ h))
  · exact h

theorem surroundings (c : Instr) {s : State} (h : P s) : P (surroundings c s) := by
  cases c
  case coldReset => exact kept.coldReset _ s
  case warmReset => exact kept.resetFalls h
  case resetRise => exact kept.onPow (fun p => { p with resetLow := false }) h
  case writeTransfer => exact kept.writeNow _ h
  case readTransfer => exact kept.readNow h
  case packetLeft => exact kept.packetLeftNow h
  case unknownTransfer =>
    simp only [Machine.surroundings]
    split <;> exact kept.same (s := s) (by simp [SameLightEng, SameJudged]) h
  case chipSelectFall =>
    simp only [Machine.surroundings]
    split <;> exact kept.same (s := s) (by simp [SameLightEng, SameJudged]) h
  case statusRead => exact kept.same (s := s) (by simp [SameLightEng, SameJudged, Machine.surroundings, radioSend]) h
  case refetchRead => exact kept.same (s := s) (by simp [SameLightEng, SameJudged, Machine.surroundings, radioSend]) h
  case chunkHeader =>
    simp only [Machine.surroundings]
    split
    · exact kept.headerNow _ h
    · exact h
  case chunkFrameEnd =>
    simp only [Machine.surroundings]
    split
    · exact h
    · exact kept.frameEndNow _ _ h
  case radioAttnRise =>
    simp only [Machine.surroundings]
    split
    · exact kept.wakeSource _ (kept.onPow _ h)
    · exact kept.onPow _ h
  case keyEdge => exact kept.keyEdgeNow _ _ h
  case debounceExpiry => exact kept.expire _ (fun _ => kept.debounceNow _) h
  case longTimerExpiry => exact kept.expire _ (fun _ => kept.longNow _) h
  case runTick => exact kept.expire _ (fun _ => kept.tickNow _) h
  case frameBoundary => exact kept.expire _ (fun _ => kept.boundary) h
  case conversionEnd => exact kept.conversionNow _ h
  case tempIntervalExpiry => exact kept.expire _ (fun _ => kept.tempIntervalNow) h
  case sampleTimerExpiry => exact kept.expire _ (fun _ => kept.sampleNow) h
  case rampStep => exact kept.expire _ (fun _ => kept.ramp) h
  case followStep => exact kept.expire _ (fun _ => kept.followStepNow) h
  case followSettleExpiry => exact kept.expire _ (fun _ => kept.followSettleNow) h
  case moderationSettleExpiry => exact kept.settleFires _ h
  case moderationAbsoluteExpiry => exact kept.absoluteFires _ h
  case drainTimerExpiry => exact kept.expire _ (fun _ => kept.drainExpires) h
  case wakeTimerExpiry => exact kept.expire _ (fun _ => kept.wakeTimerNow) h
  case resleepTimerExpiry => exact kept.expire _ (fun _ => kept.resleepNow) h
  case selfRefreshExitEnd => exact kept.expire _ (fun _ => kept.exitEnds) h
  case flashReadDone => exact kept.flashReadNow h
  case flashPageDone => exact kept.flashPageNow h
  case flashEraseDone => exact kept.flashEraseNow h
  case flashFailure => exact kept.flashFailureNow h
  case flashSuspended => exact kept.flashSuspendedNow h
  case suspendNoAnswer => exact kept.noAnswerNow h
  case minRunPoint => exact kept.minRunNow h
  case runningTimeOverrun => exact kept.overrunNow h
  case flashResetDone => exact kept.flashResetNow h
  case flashResetTimeout => exact kept.resetTimeoutNow h
  case pwmPeriodStart => exact kept.periodStart _ h
  all_goals exact h

/-- Every part of an event keeps the property. -/
theorem toKept : Kept P where
  clock _ h := kept.same (by simp [SameLightEng, SameJudged]) h
  front _ _ h := kept.same (by simp [SameLightEng, SameJudged]) h
  leave _ _ h := kept.leaveInbound _ h
  serves _ _ _ h := kept.serves _ _ h
  others _ _ h := kept.surroundings _ h
  judge _ h := kept.judgePower h

end LightEngKept

end Sys2Proof.Machine
end

section
namespace Sys2Proof.Machine

open Sys2Proof Sys2Proof.Claims

/-! ## The light's judged state and its grant (R86, R107) -/

/-- Which state is judged depends on the judged part of the record alone. -/
theorem SameJudged.lightSound {s t : State} (h : SameJudged s.light t.light) (sound : s.lightSound) : t.lightSound := by
  obtain ⟨h1, h2, h3, h4, h5, h6, h7⟩ := h
  obtain ⟨judged, within⟩ := sound
  exact ⟨by rw [h7, judged]; exact (judged_congr h1 h2 h3 h4 h5 h6).symm, by rw [h5, h6]; exact within⟩

/-- An operation that leaves the light leaves it sound. -/
theorem lightSound_of_light_eq {s t : State} (h : t.light = s.light) (sound : s.lightSound) : t.lightSound :=
  SameJudged.lightSound (by simp [SameJudged, h]) sound

/-- After a judging the light is sound if its grant is within its claim. -/
theorem judgeLight_lightSound {s : State} (h : s.light.grant ≤ s.light.claim) : (judgeLight s).lightSound := by
  refine ⟨?_, by simpa using h⟩
  rw [judgeLight_state]
  exact (judged_congr (by simp) (by simp) (by simp) (by simp) (by simp) (by simp)).symm

/-- A new grant within the claim leaves the light sound, whatever its state was. -/
theorem setGrant_lightSound {g : Nat} {s : State} (h : g ≤ s.light.claim) : (setGrant g s).lightSound :=
  lightSound_of_light_eq (judgeCutMark_record _) (judgeLight_lightSound (by simpa [lightMix] using h))

/-- A raise ends within the claim (R107). -/
theorem raised_le_claim {s : State} (h : s.light.grant ≤ s.light.claim) : s.raised ≤ s.light.claim := by
  unfold State.raised
  omega

/-- A LIGHT event leaves the judged part of the record. -/
theorem recordLight_sameJudged (k : Nat) (s : State) : SameJudged s.light (recordLight k s).light := by
  simp [SameJudged]

/-- A BUDGET event leaves the light. -/
theorem recordBudget_light (k : Nat) (s : State) : (recordBudget k s).light = s.light := by simp

theorem standingWant_lightSound {s : State} (h : s.lightSound) : (standingWant s).lightSound := by
  unfold standingWant
  split
  · exact setGrant_lightSound (raised_le_claim h.2)
  · exact h

theorem cutLight_lightSound (g : Nat) {s : State} (h : s.lightSound) : (cutLight g s).lightSound := by
  unfold cutLight
  split
  · rename_i lower
    exact lightSound_of_light_eq (recordBudget_light 0 _)
      (setGrant_lightSound (Nat.le_trans (Nat.le_of_lt lower) h.2))
  · exact h

/-- Granting a claim leaves the light alone. -/
theorem grantClaim_light (c : Claim) (s : State) : (grantClaim c s).light = s.light := by simp

theorem passLoop_lightSound (n : Nat) {s : State} (h : s.lightSound) : (passLoop n s).lightSound := by
  induction n generalizing s with
  | zero => exact h
  | succ n ih =>
    unfold passLoop
    repeat' split
    · exact standingWant_lightSound h
    · exact ih (lightSound_of_light_eq (grantClaim_light ..) h)
    · exact ih (lightSound_of_light_eq (grantClaim_light ..) (cutLight_lightSound _ h))
    · exact h

theorem decisionPass_lightSound {s : State} (h : s.lightSound) : (decisionPass s).lightSound := passLoop_lightSound _ h

theorem lookPass_lightSound {s : State} (h : s.lightSound) : (lookPass s).lightSound := by
  have looked : (look s).lightSound := lightSound_of_light_eq (by simp) h
  simp only [lookPass]
  split
  · exact looked
  · exact decisionPass_lightSound looked

/-- A change of targets judges the state anew. -/
theorem targetsChanged_lightSound {s : State} (h : s.light.grant ≤ s.light.claim) : (targetsChanged s).lightSound := by
  unfold targetsChanged
  repeat' split
  · exact judgeLight_lightSound h
  · exact judgeLight_lightSound h
  · exact judgeLight_lightSound h
  · exact SameJudged.lightSound (s := judgeLight _) (recordLight_sameJudged 0 _) (judgeLight_lightSound h)

/-- A report ends with the grant within the new claim: a lower claim lowers the grant to it, and a raise goes no higher. -/
theorem reportClaim_lightSound {s : State} (h : s.light.grant ≤ s.light.claim) : (reportClaim s).lightSound := by
  simp only [reportClaim]
  repeat' split
  · exact lightSound_of_light_eq (judgeCutMark_record _) (judgeLight_lightSound (by simp; omega))
  · exact decisionPass_lightSound (setGrant_lightSound (by simp))
  · exact setGrant_lightSound (raised_le_claim (by simp; omega))
  · exact setGrant_lightSound (by simp; omega)

theorem rampStepNow_lightSound {s : State} (h : s.lightSound) : (rampStepNow s).lightSound := by
  have moved : (reportClaim (rampMove s)).lightSound := reportClaim_lightSound (by simpa [rampMove] using h.2)
  unfold rampStepNow rampNext
  split
  · exact SameJudged.lightSound (by simp [SameJudged]) moved
  · exact SameJudged.lightSound (by simp [SameJudged]) moved

theorem afterLanes_lightSound (ls : List (Nat × Lane)) {s : State} (h : s.lightSound) : (ls.foldl afterLane s).lightSound := by
  induction ls generalizing s with
  | nil => exact h
  | cons l ls ih =>
    refine ih ?_
    unfold afterLane
    split
    · exact lookPass_lightSound h
    · exact lookPass_lightSound (decisionPass_lightSound h)

theorem boundaryNow_lightSound {s : State} (h : s.lightSound) : (boundaryNow s).lightSound :=
  afterLanes_lightSound _ (lightSound_of_light_eq (by simp) h)

theorem abortEntries_light (es : List QEntry) (s : State) : (es.foldl abortEntry s).light = s.light :=
  foldl_keeps State.light (fun s e => by simp) es s

theorem abortNow_lightSound (id : Option Nat) {s : State} (h : s.lightSound) : (abortNow id s).lightSound := by
  simp only [abortNow]
  have removed := lightSound_of_light_eq (abortEntries_light (s.abortEntries id) s) h
  repeat' split
  · exact decisionPass_lightSound removed
  · exact removed
  · exact lookPass_lightSound (decisionPass_lightSound removed)
  · exact lookPass_lightSound removed

/-- The operations that change the light keep its state judged and its grant within its claim. -/
theorem lightSound_kept : LightEngKept State.lightSound where
  same h := h.1.lightSound
  pass := decisionPass_lightSound
  looks := lookPass_lightSound
  cut g _ := cutLight_lightSound g
  misfit := lightSound_of_light_eq (by simp)
  report h := reportClaim_lightSound h.2
  ramp := rampStepNow_lightSound
  targets _ sound claim grant _ := targetsChanged_lightSound (by rw [claim, grant]; exact sound.2)
  appends _ _ _ _ _ _ _ _ := id
  boundary := boundaryNow_lightSound
  abort id _ := abortNow_lightSound id
  emptied h _ := h.lightSound
  warm h _ := h.lightSound
  reset light _ := by simp [State.lightSound, light, FrontLight.reset, FrontLight.judged]

end Sys2Proof.Machine

namespace Sys2Proof.Claims

open Sys2Proof Sys2Proof.Machine

/-- Settles O7: the operations that change the light keep it sound, and every step is made of them. -/
theorem stepKeepsLightSound : Obligations.StepKeepsLightSound := fun _ _ h ht => lightSound_kept.toKept.step h ht

end Sys2Proof.Claims
end

section
namespace Sys2Proof.Machine

open Sys2Proof Sys2Proof.Claims

/-! ## The counts of R34 -/

/-- Entries that leave the queue, and records and lanes that no more than replace what goes, keep the counts. -/
theorem counted_of_sublist {s t : State} (h : s.counted)
    (nums : (t.eng.queue.map QEntry.num).Sublist (s.eng.queue.map QEntry.num))
    (sum : t.eng.queue.length + t.lanesOccupied + t.eng.completions.length ≤
      s.eng.queue.length + s.lanesOccupied + s.eng.completions.length)
    (next : t.eng.nextNum = s.eng.nextNum) : t.counted := by
  obtain ⟨most, all, nodup, below⟩ := h
  have fewer := nums.length_le
  simp only [List.length_map] at fewer
  refine ⟨by omega, by omega, nums.nodup nodup, fun e he => ?_⟩
  obtain ⟨e', he', same⟩ := List.mem_map.1 (nums.subset (List.mem_map_of_mem he))
  rw [next, ← same]
  exact below e' he'

/-- The counts depend on the engine alone. -/
theorem counted_of_eng_eq {s t : State} (h : t.eng = s.eng) (counted : s.counted) : t.counted :=
  counted_of_sublist counted (by simp only [h, List.Sublist.refl]) (by simp [State.lanesOccupied, h]) (by rw [h])

/-! ### Entries that leave the queue -/

/-- A listed entry's number leaves the queue at least one shorter. -/
theorem length_filter_num {q : List QEntry} {n : Nat} (h : n ∈ q.map QEntry.num) :
    (q.filter fun e => e.num != n).length + 1 ≤ q.length := by
  obtain ⟨e, he, rfl⟩ := List.mem_map.1 h
  have := List.length_filter_lt_length_iff_exists (p := fun a => a.num != e.num) (l := q) |>.2 ⟨e, he, by simp⟩
  omega

/-- The numbers left after an entry has gone. -/
theorem filter_num_sublist (q : List QEntry) (n : Nat) :
    ((q.filter fun e => e.num != n).map QEntry.num).Sublist (q.map QEntry.num) :=
  List.filter_sublist.map _

/-- An entry of the queue gives its place to its completion record. -/
theorem counted_exchange {s t : State} {n : Nat} {c : Completion} (h : s.counted) (listed : n ∈ s.eng.queue.map QEntry.num)
    (eng : t.eng = { s.eng with queue := s.eng.queue.filter fun a => a.num != n,
                                completions := s.eng.completions ++ [c] }) : t.counted := by
  have shorter := length_filter_num listed
  refine counted_of_sublist h ?_ ?_ ?_
  · rw [eng]; exact filter_num_sublist _ _
  · simp only [State.lanesOccupied, eng, List.length_append, List.length_singleton]; omega
  · rw [eng]

theorem endEntry_counted {e : QEntry} {s : State} (status : Status) (m : Mode) (p : Bool) (h : s.counted)
    (listed : e ∈ s.eng.queue) : (endEntry e status m p s).counted :=
  counted_exchange h (List.mem_map_of_mem listed) (appendCompletion_eng _ _)

/-- A pick record changes no number. -/
theorem map_setPick_num (n : Nat) (p : Pick) (q : List QEntry) : (q.map (setPick n p)).map QEntry.num = q.map QEntry.num := by
  rw [List.map_map]
  refine List.map_congr_left fun e _ => ?_
  simp only [Function.comp, setPick]
  split <;> rfl

theorem sendClaim_counted (e : QEntry) (p : Pick) {s : State} (h : s.counted) : (sendClaim e p s).counted :=
  counted_of_sublist h
    (by change ((s.eng.queue.map (setPick e.num p)).map QEntry.num).Sublist _; simp only [map_setPick_num, List.Sublist.refl])
    (by simp [sendClaim, State.lanesOccupied]) (by simp [sendClaim])

theorem lookLoop_counted (n : Nat) {s : State} (h : s.counted) : (lookLoop n s).counted := by
  induction n generalizing s with
  | zero => exact h
  | succ n ih =>
    simp only [lookLoop]
    split
    · exact h
    · split
      · exact h
      · split
        · exact counted_of_eng_eq (by simp) h
        · split
          · exact h
          · rename_i e first
            have listed := firstEligible_mem s _ _ _ first
            split
            · exact ih (endEntry_counted _ _ _ h listed)
            · exact ih (endEntry_counted _ _ _ h listed)
            · exact sendClaim_counted _ _ h

/-- The CLAIMING entry is one of the queue. -/
theorem claimingEntry_mem {s : State} {e : QEntry} (h : s.claimingEntry = some e) : e ∈ s.eng.queue :=
  List.mem_of_find?_eq_some h

/-- One lane more is occupied at most when a lane is set. -/
theorem countP_set_le (ls : List (Option Lane)) (i : Nat) (l : Option Lane) :
    (ls.set i l).countP Option.isSome ≤ ls.countP Option.isSome + 1 := by
  by_cases hi : i < ls.length
  · rw [List.countP_set hi]; split <;> split <;> omega
  · rw [List.set_eq_of_length_le (by omega)]; omega

/-- The engine after the start of a lane, as far as it is counted: the entry has gone and one lane is set. -/
theorem startLane_eng {s : State} {e : QEntry} {p : Pick} (h : s.claimingEntry = some e) (picked : e.pick = some p) :
    (startLane s).eng.queue = s.eng.queue.filter (fun a => a.num != e.num) ∧
    (startLane s).eng.completions = s.eng.completions ∧ (startLane s).eng.nextNum = s.eng.nextNum ∧
    (startLane s).eng.lanes = s.eng.lanes.set s.freeLane (some (laneOf e p (s.wavePhases p.wave))) := by
  simp only [startLane, h, picked, startPanel]
  repeat' split
  all_goals simp

theorem startLane_counted {s : State} (h : s.counted) : (startLane s).counted := by
  cases claiming : s.claimingEntry with
  | none => simpa [startLane, claiming] using h
  | some e =>
    cases picked : e.pick with
    | none => simpa [startLane, claiming, picked] using h
    | some p =>
      obtain ⟨queue, completions, next, lanes⟩ := startLane_eng claiming picked
      have shorter := length_filter_num (List.mem_map_of_mem (f := QEntry.num) (claimingEntry_mem claiming))
      have more := countP_set_le s.eng.lanes s.freeLane (some (laneOf e p (s.wavePhases p.wave)))
      refine counted_of_sublist h (by rw [queue]; exact filter_num_sublist _ _) ?_ next
      simp only [State.lanesOccupied, queue, completions, lanes]
      omega

theorem passLoop_counted (n : Nat) {s : State} (h : s.counted) : (passLoop n s).counted := by
  have granted (c : Claim) (u : State) (hu : u.counted) : (grantClaim c u).counted := by
    unfold grantClaim
    split
    · exact lookLoop_counted _ (startLane_counted (counted_of_eng_eq (by simp) hu))
    · exact counted_of_eng_eq (by simp) hu
  induction n generalizing s with
  | zero => exact h
  | succ n ih =>
    unfold passLoop
    repeat' split
    · exact counted_of_eng_eq (by simp) h
    · exact ih (granted _ _ h)
    · exact ih (granted _ _ (counted_of_eng_eq (by simp) h))
    · exact h

theorem decisionPass_counted {s : State} (h : s.counted) : (decisionPass s).counted := passLoop_counted _ h

theorem lookPass_counted {s : State} (h : s.counted) : (lookPass s).counted := by
  have looked : (look s).counted := lookLoop_counted _ h
  simp only [lookPass]
  split
  · exact looked
  · exact decisionPass_counted looked

theorem judgeEngineClaim_counted {s : State} (h : s.counted) : (judgeEngineClaim s).counted := by
  unfold judgeEngineClaim
  split
  · exact h
  · rename_i e p misfit
    have listed : e ∈ s.eng.queue := by
      unfold engineMisfit at misfit
      refine claimingEntry_mem ?_
      grind
    exact endEntry_counted _ _ _ (counted_of_eng_eq (by simp) h) (by simpa using listed)

theorem reportClaim_counted {s : State} (h : s.counted) : (reportClaim s).counted := by
  simp only [reportClaim]
  repeat' split
  rotate_left
  · exact decisionPass_counted (counted_of_eng_eq (by simp) h)
  all_goals exact counted_of_eng_eq (by simp) h

theorem rampStepNow_counted {s : State} (h : s.counted) : (rampStepNow s).counted := by
  have reported : (reportClaim (rampMove s)).counted := reportClaim_counted (counted_of_eng_eq (by simp) h)
  exact counted_of_eng_eq (by simp [rampStepNow]) reported

/-- An admitted update fits the counts and has a number of its own. -/
theorem appendUpdate_counted (id : Nat) (region : Rect) (m : Mode) (np : Bool) (o : Origin) (place : Nat) {s : State}
    (admits : s.admits = true) (h : s.counted) : (appendUpdate id region m np o place s).counted := by
  obtain ⟨-, -, nodup, below⟩ := h
  simp only [State.admits, Bool.and_eq_true, decide_eq_true_eq] at admits
  obtain ⟨few, room⟩ := admits
  refine ⟨?_, ?_, ?_, ?_⟩
  · simp [appendUpdate]; omega
  · simp [appendUpdate, State.lanesOccupied] at room ⊢; omega
  · simp only [appendUpdate, List.map_append, List.map_cons, List.map_nil]
    refine List.nodup_append.2 ⟨nodup, List.pairwise_singleton .., fun a ha b hb => ?_⟩
    obtain ⟨e, he, rfl⟩ := List.mem_map.1 ha
    rw [List.mem_singleton.1 hb]
    exact Nat.ne_of_lt (below e he)
  · intro e he
    simp only [appendUpdate, List.mem_append, List.mem_singleton] at he ⊢
    rcases he with he | rfl
    · exact Nat.lt_succ_of_lt (below e he)
    · exact Nat.lt_succ_self _

/-! ### Lanes that end and stop -/

/-- The lanes that pass a test stand at their numbers, pass it, and come in the order of their numbers. -/
theorem lanesWhere_spec (p : Lane → Bool) (n : Nat) (ls : List (Option Lane)) :
    (∀ x ∈ lanesWhere p n ls, n ≤ x.1 ∧ ls[x.1 - n]? = some (some x.2) ∧ p x.2 = true) ∧
      ((lanesWhere p n ls).map Prod.fst).Pairwise (· < ·) := by
  induction ls generalizing n with
  | nil => simp [lanesWhere]
  | cons l ls ih =>
    obtain ⟨stand, sorted⟩ := ih (n + 1)
    have later : ∀ x ∈ lanesWhere p (n + 1) ls, n ≤ x.1 ∧ (l :: ls)[x.1 - n]? = some (some x.2) ∧ p x.2 = true := by
      intro x hx
      obtain ⟨at_, found, passes⟩ := stand x hx
      refine ⟨by omega, ?_, passes⟩
      rw [show x.1 - n = (x.1 - (n + 1)) + 1 by omega, List.getElem?_cons_succ]
      exact found
    cases l with
    | none => exact ⟨later, sorted⟩
    | some l =>
      simp only [lanesWhere]
      split
      · rename_i passes
        refine ⟨fun x hx => ?_, ?_⟩
        · rcases List.mem_cons.1 hx with rfl | hx
          · simp [passes]
          · exact later x hx
        · rw [List.map_cons, List.pairwise_cons]
          refine ⟨fun i hi => ?_, sorted⟩
          obtain ⟨x, hx, rfl⟩ := List.mem_map.1 hi
          exact (stand x hx).1
      · exact ⟨later, sorted⟩

/-- The engine after the release of a lane. -/
theorem releaseLane_eng (i : Nat) (l : Lane) (status : Status) (s : State) :
    (releaseLane i l status s).eng = { s.eng with
      lanes := s.eng.lanes.set i none,
      completions := if l.dropped then s.eng.completions else s.eng.completions ++ [l.record status] } := by
  simp only [releaseLane]
  split <;> simp [appendCompletion_eng]

theorem endLane_eng (i : Nat) (l : Lane) (s : State) : (endLane i l s).eng = { s.eng with
    lanes := s.eng.lanes.set i none,
    completions := if l.dropped then s.eng.completions else s.eng.completions ++ [l.record .done] } := by
  simp [endLane, releaseLane_eng]

theorem stopLane_eng (i : Nat) (l : Lane) (s : State) : (stopLane i l s).eng = { s.eng with
    lanes := s.eng.lanes.set i none,
    completions := if l.dropped then s.eng.completions else s.eng.completions ++ [l.record .aborted] } := by
  simp only [stopLane]
  split <;> simp [releaseLane_eng]

/-- An occupied lane that is freed makes room for its record. -/
theorem counted_of_released {s t : State} {i : Nat} {l : Lane} {cs : List Completion} (h : s.counted)
    (occupied : s.eng.lanes[i]? = some (some l)) (room : cs.length ≤ s.eng.completions.length + 1)
    (eng : t.eng = { s.eng with lanes := s.eng.lanes.set i none, completions := cs }) : t.counted := by
  obtain ⟨hi, at_⟩ := List.getElem?_eq_some_iff.1 occupied
  have fewer : (s.eng.lanes.set i none).countP Option.isSome + 1 = s.eng.lanes.countP Option.isSome := by
    have one : 0 < s.eng.lanes.countP Option.isSome :=
      List.countP_pos_iff.2 ⟨some l, List.mem_of_getElem? occupied, rfl⟩
    rw [List.countP_set hi]; simp [at_]; omega
  refine counted_of_sublist h (by simp only [eng, List.Sublist.refl]) ?_ (by rw [eng])
  simp only [State.lanesOccupied, eng]
  omega

/-- Lanes released one after another, each occupied until its turn, keep the counts and leave the other lanes. -/
theorem releases_counted (f : Nat → Lane → State → State) (status : Status)
    (eng : ∀ i l s, (f i l s).eng = { s.eng with
      lanes := s.eng.lanes.set i none,
      completions := if l.dropped then s.eng.completions else s.eng.completions ++ [l.record status] })
    (xs : List (Nat × Lane)) (sorted : (xs.map Prod.fst).Pairwise (· < ·)) {s : State} (h : s.counted)
    (occupied : ∀ x ∈ xs, s.eng.lanes[x.1]? = some (some x.2)) :
    (xs.foldl (fun s x => f x.1 x.2 s) s).counted ∧
      ∀ j, j ∉ xs.map Prod.fst → (xs.foldl (fun s x => f x.1 x.2 s) s).eng.lanes[j]? = s.eng.lanes[j]? := by
  induction xs generalizing s with
  | nil => exact ⟨h, fun _ _ => rfl⟩
  | cons x xs ih =>
    rw [List.map_cons, List.pairwise_cons] at sorted
    have released : (f x.1 x.2 s).counted := by
      refine counted_of_released h (occupied x (by simp)) ?_ (eng x.1 x.2 s)
      split <;> simp
    have others : ∀ j, j ≠ x.1 → (f x.1 x.2 s).eng.lanes[j]? = s.eng.lanes[j]? := by
      intro j hj
      rw [eng]
      exact List.getElem?_set_ne (Ne.symm hj)
    obtain ⟨counted, rest⟩ := ih sorted.2 released fun y hy => by
      have := sorted.1 y.1 (List.mem_map_of_mem hy)
      rw [others y.1 (by omega)]
      exact occupied y (by simp [hy])
    refine ⟨counted, fun j hj => ?_⟩
    rw [List.map_cons, List.mem_cons, not_or] at hj
    rw [List.foldl_cons, rest j hj.2, others j hj.1]

theorem endAndStop_counted {s : State} (h : s.counted) : (endAndStop s).counted := by
  obtain ⟨ending, endSorted⟩ := lanesWhere_spec Lane.finishes 0 s.eng.lanes
  obtain ⟨stopping, stopSorted⟩ := lanesWhere_spec Lane.stops 0 s.eng.lanes
  obtain ⟨ended, others⟩ := releases_counted endLane .done endLane_eng _ endSorted h fun x hx => by
    simpa using (ending x hx).2.1
  refine (releases_counted stopLane .aborted stopLane_eng _ stopSorted ended fun x hx => ?_).1
  obtain ⟨-, stands, stops⟩ := stopping x hx
  rw [others x.1 ?_]
  · simpa using stands
  · intro ends
    obtain ⟨y, hy, same⟩ := List.mem_map.1 ends
    obtain ⟨-, stands', finishes⟩ := ending y hy
    rw [same, stands, Option.some_inj, Option.some_inj] at stands'
    rw [← stands'] at finishes
    simp only [Lane.stops, Lane.finishes, Bool.and_eq_true, bne_iff_ne, beq_iff_eq] at stops finishes
    exact stops.2 finishes.2

/-- A change of every lane frees and occupies none. -/
theorem countP_map_lane (f : Lane → Lane) (ls : List (Option Lane)) :
    (ls.map fun l => l.map f).countP Option.isSome = ls.countP Option.isSome := by
  rw [List.countP_map]
  refine List.countP_congr fun l _ => ?_
  cases l <;> simp

/-- A change of every lane keeps the counts. -/
theorem counted_of_lanes_mapped (f : Lane → Lane) {s t : State} (h : s.counted)
    (lanes : t.eng.lanes = s.eng.lanes.map fun l => l.map f) (queue : t.eng.queue = s.eng.queue)
    (completions : t.eng.completions = s.eng.completions) (next : t.eng.nextNum = s.eng.nextNum) : t.counted := by
  refine counted_of_sublist h (by simp only [queue, List.Sublist.refl]) ?_ next
  simp only [State.lanesOccupied, lanes, queue, completions, countP_map_lane, Nat.le_refl]

/-- A base noted as included changes no number. -/
theorem map_raisePick_num (b : Nat) (q : List QEntry) : (q.map (raisePick b)).map QEntry.num = q.map QEntry.num := by
  rw [List.map_map]
  refine List.map_congr_left fun e _ => ?_
  simp only [Function.comp, raisePick]
  split <;> rfl

theorem raiseWaiting_counted {s : State} (h : s.counted) : (raiseWaiting s).counted := by
  simp only [raiseWaiting]
  repeat' split
  rotate_left
  · exact counted_of_sublist h (by simp only [map_raisePick_num, List.Sublist.refl]) (by simp [State.lanesOccupied]) rfl
  all_goals exact h

theorem joinAndOpen_counted {s : State} (h : s.counted) : (joinAndOpen s).counted := by
  have joined : State.counted
      { s with eng := { s.eng with lanes := s.eng.lanes.map fun l => l.map Lane.join } } :=
    counted_of_lanes_mapped Lane.join h rfl rfl rfl rfl
  simp only [joinAndOpen]
  split
  · exact counted_of_lanes_mapped Lane.apply joined rfl rfl rfl rfl
  · exact raiseWaiting_counted joined

theorem afterLanes_counted (ls : List (Nat × Lane)) {s : State} (h : s.counted) : (ls.foldl afterLane s).counted := by
  induction ls generalizing s with
  | nil => exact h
  | cons l ls ih =>
    refine ih ?_
    unfold afterLane
    split
    · exact lookPass_counted h
    · exact lookPass_counted (decisionPass_counted h)

theorem boundaryNow_counted {s : State} (h : s.counted) : (boundaryNow s).counted :=
  afterLanes_counted _ (joinAndOpen_counted (endAndStop_counted h))

/-! ### ABORT -/

/-- An aborted entry gives its place to its record. -/
theorem abortEntry_eng (e : QEntry) (s : State) : (abortEntry s e).eng = { s.eng with
    queue := s.eng.queue.filter fun a => a.num != e.num, completions := s.eng.completions ++ [e.abortRecord] } := by
  simp [abortEntry, appendCompletion_eng, dropEntry]

/-- Listed entries with numbers of their own are aborted one after another. -/
theorem abortEntries_counted (es : List QEntry) (nodup : (es.map QEntry.num).Nodup) {s : State} (h : s.counted)
    (listed : ∀ e ∈ es, e.num ∈ s.eng.queue.map QEntry.num) : (es.foldl abortEntry s).counted := by
  induction es generalizing s with
  | nil => exact h
  | cons e es ih =>
    rw [List.map_cons, List.nodup_cons] at nodup
    refine ih nodup.2 (counted_exchange h (listed e (by simp)) (abortEntry_eng e s)) fun a ha => ?_
    obtain ⟨a', ha', same⟩ := List.mem_map.1 (listed a (by simp [ha]))
    rw [abortEntry_eng]
    refine List.mem_map.2 ⟨a', List.mem_filter.2 ⟨ha', ?_⟩, same⟩
    simp only [same, bne_iff_ne]
    exact fun eq => nodup.1 (eq ▸ List.mem_map_of_mem ha)

/-- Members with one image are one, where no two images are equal. -/
theorem eq_of_nodup_map {α β : Type} {f : α → β} {l : List α} (nodup : (l.map f).Nodup) {a b : α} (ha : a ∈ l)
    (hb : b ∈ l) (same : f a = f b) : a = b := by
  induction l with
  | nil => cases ha
  | cons x l ih =>
    rw [List.map_cons, List.nodup_cons] at nodup
    obtain ⟨fresh, rest⟩ := nodup
    rcases List.mem_cons.1 ha with rfl | later <;> rcases List.mem_cons.1 hb with rfl | later'
    · rfl
    · exact absurd (same ▸ List.mem_map_of_mem later') fresh
    · exact absurd (same ▸ List.mem_map_of_mem later) fresh
    · exact ih rest later later'

/-- The entries that ABORT removes have numbers of their own. -/
theorem abortEntries_nodup {s : State} (id : Option Nat) (h : s.counted) :
    ((s.abortEntries id).map QEntry.num).Nodup := by
  obtain ⟨-, -, nodup, -⟩ := h
  rw [State.abortEntries, List.map_append]
  refine List.nodup_append.2 ⟨(List.filter_sublist.map _).nodup nodup, (List.filter_sublist.map _).nodup nodup, ?_⟩
  rintro n waits m claims rfl
  obtain ⟨a, ha, rfl⟩ := List.mem_map.1 waits
  obtain ⟨b, hb, same⟩ := List.mem_map.1 claims
  simp only [List.mem_filter, Bool.and_eq_true] at ha hb
  obtain rfl := eq_of_nodup_map nodup hb.1 ha.1 same
  simp_all

/-- The entries that ABORT removes are the queue's. -/
theorem abortEntries_mem {s : State} {id : Option Nat} {e : QEntry} (h : e ∈ s.abortEntries id) : e ∈ s.eng.queue := by
  simp only [State.abortEntries, List.mem_append, List.mem_filter] at h
  rcases h with h | h <;> exact h.1

theorem abortNow_counted (id : Option Nat) {s : State} (h : s.counted) : (abortNow id s).counted := by
  have removed : ((s.abortEntries id).foldl abortEntry s).counted :=
    abortEntries_counted _ (abortEntries_nodup id h) h fun e he => List.mem_map_of_mem (abortEntries_mem he)
  have marked (u : State) (hu : u.counted) : State.counted
      { u with eng := { u.eng with lanes := u.eng.lanes.map fun l => l.map (markStopping id) } } :=
    counted_of_lanes_mapped (markStopping id) hu rfl rfl rfl rfl
  simp only [abortNow]
  repeat' split
  · exact decisionPass_counted (marked _ removed)
  · exact marked _ removed
  · exact lookPass_counted (decisionPass_counted (marked _ removed))
  · exact lookPass_counted (marked _ removed)

/-! ### Every step -/

/-- The operations that change the engine keep the counts. -/
theorem counted_kept : LightEngKept State.counted where
  same h := counted_of_eng_eq h.2
  pass := decisionPass_counted
  looks := lookPass_counted
  cut _ _ := counted_of_eng_eq (by simp)
  misfit := judgeEngineClaim_counted
  report := reportClaim_counted
  ramp := rampStepNow_counted
  targets _ h _ _ eng := counted_of_eng_eq (by simp [eng]) h
  appends := appendUpdate_counted
  boundary := boundaryNow_counted
  abort id _ := abortNow_counted id
  emptied _ eng h := counted_of_sublist h (by simp only [eng, List.Sublist.refl]) (by simp [State.lanesOccupied, eng]) (by rw [eng])
  warm _ eng h := by
    refine counted_of_sublist h (by simp [eng, Engine.warm]) ?_ (by rw [eng]; rfl)
    simp only [State.lanesOccupied, eng, Engine.warm, countP_map_lane, List.length_nil]
    omega
  reset _ eng := by simp [State.counted, State.lanesOccupied, eng, Engine.reset]

end Sys2Proof.Machine

namespace Sys2Proof.Claims

open Sys2Proof Sys2Proof.Machine

/-- Settles O8: the operations that change the engine keep the counts, and every step is made of them. -/
theorem stepKeepsCounts : Obligations.StepKeepsCounts := fun _ _ h ht => counted_kept.toKept.step h ht

/-- Settles O5: a cold reset's state has its sizes, an unlit light and an empty engine. -/
theorem resetIsSound : Obligations.ResetIsSound :=
  ⟨(shaped_iff _).2 ⟨rfl, List.length_replicate, rfl, rfl, rfl, rfl, rfl⟩, lightSound_kept.reset rfl rfl,
    counted_kept.reset rfl rfl⟩

end Sys2Proof.Claims
end

section
namespace Sys2Proof.Machine

open Sys2Proof Sys2Proof.Claims

/-! ## Request commands and their answers -/

/-- A request command runs to what serving the taken request gives. -/
theorem runs_served {s t : State} {k : ReqKind} {r : Request} (h : s.taken k = some r)
    (served : serve k r (took k.stream s) = t) : runs (commandOf k) s t := by
  simp [runs, exec_eq_event, effect_commandOf, event, takeRequest_taken _ h, served]

/-- A request command runs to the response that serving the taken request ends with. -/
theorem runs_answered {s u : State} {k : ReqKind} {r : Request} {c : Code} {b : List Byte} (h : s.taken k = some r)
    (served : serve k r (took k.stream s) = respond r c b u) : runs (commandOf k) s (replied k r c b u) :=
  runs_served h (served.trans (respond_eq_replied h c b u))

/-- A request command that is refused changes nothing but the inbound list and the outbound queue. -/
theorem runs_refused {s : State} {k : ReqKind} {r : Request} {c : Code} (h : s.taken k = some r)
    (served : serve k r (took k.stream s) = respond r c [] (took k.stream s)) :
    runs (commandOf k) s (refusedWith k r c s) :=
  runs_answered h served

/-- Taking a request changes the inbound list and the place in the DISPLAY order alone. -/
@[simp] theorem took_frame (st : Stream) (s : State) :
    (took st s).now = s.now ∧ (took st s).pending = s.pending ∧ (took st s).fresh = s.fresh ∧
    (took st s).lastLink = s.lastLink ∧ (took st s).lastRadio = s.lastRadio ∧ (took st s).settings = s.settings ∧
    (took st s).img = s.img ∧ (took st s).wav = s.wav ∧ (took st s).conv = s.conv ∧ (took st s).eng = s.eng ∧
    (took st s).pool = s.pool ∧ (took st s).cache = s.cache ∧ (took st s).keys = s.keys ∧
    (took st s).light = s.light ∧ (took st s).sup = s.sup ∧ (took st s).fetch = s.fetch ∧
    (took st s).store = s.store ∧ (took st s).content = s.content ∧ (took st s).pow = s.pow := by
  simp [took]

/-- A taken DISPLAY request has the next place in the DISPLAY order (R35). -/
@[simp] theorem took_display_displayPlace (s : State) : (took .display s).displayPlace = s.displayPlace + 1 := rfl

/-! ## A cold reset (R159) -/

/-- With nothing waiting, and neither DRAINING nor in DOZE, an event ends with nothing more. -/
theorem finish_of_empty {s : State} (h : s.link.inbound = []) (h1 : s.pow.state ≠ .draining) (h2 : s.pow.state ≠ .doze) :
    finish s = s := by
  rw [finish_of_due_none (due_none_of_empty h), judgePower_of_not h1 h2]

/-- What a power loss leaves is what a TIMEOUT of the operation at the flash leaves, if there is one. -/
theorem powerLost_eq {s lost : State} (noOp : s.store.flash.atFlash = false ∨ s.store.op = none → lost = s)
    (atFlash : s.store.flash.atFlash = true → ∀ o, s.store.op = some o → lost = timeoutContent o s) : powerLost s = lost := by
  unfold powerLost
  split
  · rename_i none; exact (noOp (.inr none)).symm
  · rename_i o op
    split
    · rename_i at_; exact (atFlash at_ o op).symm
    · rename_i not; exact (noOp (.inl (Bool.eq_false_iff.2 not))).symm

/-- A power loss changes the content and the counter of free values alone. -/
@[simp] theorem powerLost_frame (s : State) : (powerLost s).now = s.now ∧ (powerLost s).pending = s.pending ∧
    (powerLost s).keys = s.keys ∧ (powerLost s).pow = s.pow := by
  unfold powerLost
  repeat' split
  all_goals simp

/-- Each key keeps its raw level through a cold reset, and nothing else (R85). -/
theorem coldKeys_key (now : Nat) (keys : Scanner) (k : Key) :
    (coldKeys now keys).key k = { KeyScan.reset with pressed := (keys.key k).pressed } := by
  cases k <;> rfl

/-- The key clock restarts at a cold reset (R78, R85). -/
theorem keyClock_restarted {s : State} (h : s.keys.epoch = s.now) : s.keyClock = 0 := by
  simp [State.keyClock, h]

end Sys2Proof.Machine

namespace Sys2Proof.Claims

open Sys2Proof Sys2Proof.Machine

/-- Settles O9: a cold reset brings in no request and nothing to judge, so its own function says the whole state. -/
theorem coldResetLeaves : Obligations.ColdResetLeaves := by
  intro service s lost noOp atFlash
  have lostEq := powerLost_eq noOp atFlash
  have ends : finish (coldReset service s) = coldReset service s := finish_of_empty rfl nofun nofun
  obtain ⟨now, pending, keys, pow⟩ := powerLost_frame s
  refine ⟨coldReset service s, by rw [exec_eq_event]; exact congrArg _ ends, ?_⟩
  refine ⟨by simp [coldReset], rfl, rfl, rfl, rfl, rfl, rfl, rfl, rfl, rfl, rfl, by simp [coldReset, Converter.reset],
    rfl, fun k => ?_, rfl, rfl, keyClock_restarted rfl, ?_, ?_, pending, now, rfl, rfl⟩
  · rw [← keys]; exact coldKeys_key _ _ k
  · rw [← lostEq]; rfl
  · rw [← lostEq]; rfl

end Sys2Proof.Claims
end

section
namespace Sys2Proof.Machine

open Sys2Proof Sys2Proof.Claims

/-! ## TONE_MAP, PAGE_TAG and UPDATE -/

/-- A tone map is good when every entry is a level (R8). -/
theorem toneMapOk_iff (body : List Byte) : toneMapOk body = true ↔ ∀ b ∈ body, b.toNat ≤ 15 := by
  simp [toneMapOk]

/-- The mode of a field is a mode exactly below 4. -/
theorem modeOf_eq_none_iff (n : Nat) : modeOf n = none ↔ 3 < n := by
  refine ⟨fun h => ?_, modeOf_none⟩
  refine Classical.byContradiction fun small => ?_
  obtain ⟨m, named, -⟩ := modeOf_some (Nat.not_lt.1 small)
  rw [named] at h
  cases h

/-- UPDATE is refused RANGE exactly when a field is out of its range (R33). -/
theorem updateCheck_range {s : State} {b : List Byte}
    (h : ¬ (nat16At b 0 ≠ 0 ∧ byteAt b 10 ≤ 3 ∧ byteAt b 11 ≤ 1 ∧ (rectAt b 2).x0 ≤ (rectAt b 2).x1 ∧
      (rectAt b 2).y0 ≤ (rectAt b 2).y1 ∧ (rectAt b 2).x0 ≤ 1599 ∧ (rectAt b 2).y0 ≤ 1199)) :
    s.updateCheck b = .inl .range := by
  unfold State.updateCheck
  split
  · rfl
  · rename_i m named
    have small : byteAt b 10 ≤ 3 := by
      refine Classical.byContradiction fun above => ?_
      rw [modeOf_none (by omega)] at named
      cases named
    have bad : nat16At b 0 = 0 ∨ 1 < byteAt b 11 ∨ (rectAt b 2).legal = false := by
      rw [← Bool.not_eq_true, Rect.legal_iff]
      refine Classical.byContradiction fun none => ?_
      simp only [not_or, Nat.not_lt, Classical.not_not] at none
      obtain ⟨h1, h2, h3⟩ := none
      exact h ⟨h1, small, h2, h3⟩
    rw [if_pos bad]

/-- UPDATE with legal fields is refused FULL or admitted by the counts of R34 (R33). -/
theorem updateCheck_legal {s : State} {b : List Byte} {m : Mode} (mode : byteAt b 10 = m.code)
    (h : nat16At b 0 ≠ 0 ∧ byteAt b 11 ≤ 1 ∧ (rectAt b 2).x0 ≤ (rectAt b 2).x1 ∧
      (rectAt b 2).y0 ≤ (rectAt b 2).y1 ∧ (rectAt b 2).x0 ≤ 1599 ∧ (rectAt b 2).y0 ≤ 1199) :
    s.updateCheck b = if s.admits = true then .inr m else .inl .full := by
  obtain ⟨id, options, rect⟩ := h
  have legal := (Rect.legal_iff (rectAt b 2)).2 rect
  unfold State.updateCheck
  rw [mode, modeOf_code]
  cases admits : s.admits <;> simp [id, Nat.not_lt.2 options, legal]

/-- Admission is by the two counts of R34. -/
theorem admits_iff (s : State) : s.admits = true ↔
    s.eng.queue.length < 32 ∧ s.eng.queue.length + s.lanesOccupied + s.eng.completions.length < 48 := by
  simp [State.admits]

/-! ## CACHE_OPEN -/

/-- A field out of its range is refused by CACHE_OPEN (R68). -/
theorem serveCacheOpen_range {r : Request} (s : State)
    (h : ¬ (byteAt r.body 0 ≤ 1 ∧ byteAt r.body 1 ≤ 2 ∧ byteAt r.body 2 ≤ 15)) :
    serveCacheOpen r s = respond r .range [] s := by
  unfold serveCacheOpen
  split
  · rename_i d m list mode
    have small : byteAt r.body 0 ≤ 1 := by
      refine Classical.byContradiction fun above => ?_
      rw [dirOf_none (by omega)] at list
      cases list
    have page : byteAt r.body 1 ≤ 2 := by
      refine Classical.byContradiction fun above => ?_
      rw [pageModeOf_none (by omega)] at mode
      cases mode
    rw [if_pos (by omega)]
  · rfl

/-- A page mode has a code up to 2. -/
theorem page_of_code_le {m : Mode} (h : m.code ≤ 2) : m ≠ .skim := by
  rintro rfl; exact absurd h (by decide)

/-- CACHE_OPEN with legal fields: FULL, then ROOM, then a new entry (R68). -/
theorem serveCacheOpen_legal {r : Request} (s : State) {d : Dir} {m : Mode} (list : byteAt r.body 0 = d.code)
    (mode : byteAt r.body 1 = m.code) (page : byteAt r.body 1 ≤ 2) (fill : byteAt r.body 2 ≤ 15) :
    serveCacheOpen r s =
      if d.capacity ≤ (s.cache.list d).length then respond r .full [] s
      else if s.availableToCache < 15 then respond r .room [byteOf s.availableToCache] s
      else respond r .ok [byteOf s.cache.freeNumber] (openEntry d m r.body s) := by
  unfold serveCacheOpen
  rw [list, mode, dirOf_code, pageModeOf_code (page_of_code_le (mode ▸ page))]
  simp only [Nat.not_lt.2 fill, if_false, Config.planeSlabs]
  rfl

/-! ## TURN -/

/-- A turn with a miss appends its record alone (R72). -/
theorem turnAttempt_miss {s : State} {d : Dir} {m : Miss} (h : s.turnMiss d = some m) (o : Source) (place : Nat) :
    turnAttempt d o place s = appendTurn (s.turnRecord d (some m) none o) s := by
  unfold turnAttempt
  rw [h]

/-- A turn without a miss turns to the head (R72). -/
theorem turnAttempt_turns {s : State} {d : Dir} {e : Entry} {rest : List Entry} (h : s.turnMiss d = none)
    (head : s.cache.list d = e :: rest) (o : Source) (place : Nat) :
    turnAttempt d o place s = turnNow d o place e rest s := by
  unfold turnAttempt
  rw [h, head]

/-- The miss of a turn depends on the cache, the engine and the image store alone. -/
theorem turnMiss_congr {s t : State} (d : Dir) (cache : t.cache = s.cache) (eng : t.eng = s.eng) (img : t.img = s.img) :
    t.turnMiss d = s.turnMiss d := by
  unfold State.turnMiss State.drives State.anyPending
  rw [cache, eng, img]

/-- An appended turn record leaves the target's tag. -/
@[simp] theorem appendTurn_tag (r : TurnRecord) (s : State) : (appendTurn r s).cache.tag = s.cache.tag := by
  unfold appendTurn
  split <;> simp

/-- A turn's entry is the target page afterwards, with its tag (R73). -/
@[simp] theorem turnNow_tag (d : Dir) (o : Source) (place : Nat) (e : Entry) (rest : List Entry) (s : State) :
    (turnNow d o place e rest s).cache.tag = e.tag := by
  simp [turnNow, exchange, State.turnLists]

/-- Some lane is occupied exactly when the engine drives. -/
theorem drives_iff (s : State) : s.drives = true ↔ ∃ l, some l ∈ s.eng.lanes := by
  simp only [State.drives, List.any_eq_true, Option.isSome_iff_exists]
  exact ⟨fun ⟨_, mem, l, eq⟩ => ⟨l, eq ▸ mem⟩, fun ⟨l, mem⟩ => ⟨_, mem, l, rfl⟩⟩

/-- Some tile is pending. -/
theorem anyPending_iff (s : State) : s.anyPending = true ↔ ∃ t ∈ s.img.tiles, t.pending = true := by
  simp only [State.anyPending, anyTile_iff]
  constructor
  · rintro ⟨k, t, at_, pending⟩; exact ⟨t, List.mem_of_getElem? at_, pending⟩
  · rintro ⟨t, mem, pending⟩
    obtain ⟨k, at_⟩ := List.mem_iff_getElem?.1 mem
    exact ⟨k, t, at_, pending⟩

/-- What makes the panel busy for a turn (R72). -/
def State.turnBusy (s : State) : Prop := s.eng.queue ≠ [] ∨ (∃ l, some l ∈ s.eng.lanes) ∨ s.img.held ≠ []

/-- What R72 judges of a READY head: busy, then dirty, then full. -/
theorem turnMiss_ready {s : State} {d : Dir} {e : Entry} {rest : List Entry} (head : s.cache.list d = e :: rest)
    (ready : e.isOpen = false) :
    (s.turnBusy → s.turnMiss d = some .busy) ∧
    (¬ s.turnBusy → s.anyPending = true → s.turnMiss d = some .dirty) ∧
    (¬ s.turnBusy → s.anyPending = false → s.turnMiss d = if 48 ≤ s.eng.completions.length then some .full else none) := by
  have judged : s.turnMiss d = if s.eng.queue ≠ [] ∨ s.drives = true ∨ s.img.held ≠ [] then some .busy
      else if s.anyPending = true then some .dirty
      else if 48 ≤ s.eng.completions.length then some .full else none := by
    simp [State.turnMiss, head, ready]
  simp only [State.turnBusy, ← drives_iff, judged]
  refine ⟨fun busy => if_pos busy, fun idle dirty => ?_, fun idle clean => ?_⟩
  · rw [if_neg idle, if_pos dirty]
  · rw [if_neg idle, if_neg (by simp [clean])]

/-! ## A turn (R73 to R75) -/

/-- The whole panel's tile set is every tile. -/
theorem wholePanel_tileSet : wholePanel.tileSet = { tx0 := 0, ty0 := 0, tx1 := 99, ty1 := 74 } := rfl

/-- The lists after a turn: the head has left its own, and the old page is the head of the other (R73, R74). -/
theorem turnLists_list (s : State) (d : Dir) (e : Entry) (rest : List Entry) :
    (s.turnLists d e rest).list d = rest ∧
      (s.turnLists d e rest).list d.other = (s.turnedAway e.num :: s.cache.list d.other).take d.other.capacity := by
  cases d <;> exact ⟨rfl, rfl⟩

/-- The entry that overflows, by the length of the other list (R74). -/
theorem overflow_eq (s : State) (d : Dir) : s.overflow d =
    if (s.cache.list d.other).length < d.other.capacity then none else (s.cache.list d.other).getLast? := rfl

/-- The records and the lost mark are not a turn's (R73). -/
theorem turnLists_records (s : State) (d : Dir) (e : Entry) (rest : List Entry) :
    (s.turnLists d e rest).records = s.cache.records ∧ (s.turnLists d e rest).lost = s.cache.lost := by
  cases d <;> exact ⟨rfl, rfl⟩

/-- The exchange with the turn's update appended (R73, R75). -/
def exchanged (d : Dir) (src : Source) (place : Nat) (e : Entry) (rest : List Entry) (s : State) : State :=
  appendUpdate 0 wholePanel (turnUpdateMode src e.turnMode) false .cache place (exchange d e rest s)

/-- The record of a turn (R77). -/
def turnedRecord (d : Dir) (src : Source) (e : Entry) (s : State) : TurnRecord :=
  { dir := d, miss := none, tag := e.tag, dropped := (s.overflow d).map fun t => (t.num, t.tag), source := src,
    time := s.keyClock }

/-- With fewer than 16 records a turn's record is a TURN trigger. -/
theorem turnRecord_appended {s : State} (d : Dir) (src : Source) (place : Nat) (e : Entry) (rest : List Entry)
    (room : s.cache.records.length < 16) :
    appendTurn (turnedRecord d src e s) (exchanged d src place e rest s) =
      trigger .turn { exchanged d src place e rest s with cache := { (exchange d e rest s).cache with
        records := s.cache.records ++ [turnedRecord d src e s] } } := by
  have same : (exchanged d src place e rest s).cache.records = s.cache.records := (turnLists_records s d e rest).1
  rw [appendTurn, if_pos (by rw [same]; exact room), same]
  rfl

/-- With 16 records a turn sets the lost mark. -/
theorem turnRecord_lost {s : State} (d : Dir) (src : Source) (place : Nat) (e : Entry) (rest : List Entry)
    (full : 16 ≤ s.cache.records.length) :
    appendTurn (turnedRecord d src e s) (exchanged d src place e rest s) =
      { exchanged d src place e rest s with cache := { (exchange d e rest s).cache with lost := true } } := by
  have same : (exchanged d src place e rest s).cache.records = s.cache.records := (turnLists_records s d e rest).1
  rw [appendTurn, if_neg (by rw [same]; omega)]
  rfl

end Sys2Proof.Machine

namespace Sys2Proof.Claims

open Sys2Proof Sys2Proof.Machine

/-- Settles O11: each clause is one case of serving the taken request. -/
theorem toneMapAndPageTag : Obligations.ToneMapAndPageTag := by
  refine ⟨fun s r h => ⟨fun levels => ?map, fun bad => ?mapRange⟩,
    fun s r h => ⟨fun m page mode => ?tag, fun above => ?tagRange⟩⟩
  case map => exact runs_answered h (if_pos ((toneMapOk_iff _).2 levels))
  case mapRange =>
    refine runs_refused h (if_neg fun ok => ?_)
    obtain ⟨b, mem, above⟩ := bad
    exact absurd ((toneMapOk_iff _).1 ok b mem) (by omega)
  case tag =>
    refine runs_answered h ?_
    simp only [serve, servePageTag, mode, pageModeOf_code page]
    rfl
  case tagRange =>
    refine runs_refused h ?_
    simp only [serve, servePageTag, pageModeOf_none (show 2 < byteAt r.body 4 from above)]

/-- Settles O12: the checks of R33 in order, and an admitted update. -/
theorem updateAdmission : Obligations.UpdateAdmission := by
  refine fun s r h => ⟨fun bad => ?range, fun legal full => ?full, fun legal room m mode => ?admitted⟩
  case range =>
    refine runs_refused h ?_
    simp only [serve, serveUpdate, updateCheck_range bad]
  case full =>
    obtain ⟨id, mode, rest⟩ := legal
    obtain ⟨m, -, code⟩ := modeOf_some mode
    have refused : (took .display s).admits = false := by
      rw [admits_congr (s := s) (t := took .display s) rfl, Bool.eq_false_iff]
      exact fun admits => full ((admits_iff s).1 admits)
    refine runs_refused h ?_
    simp only [serve, serveUpdate, ReqKind.stream, updateCheck_legal code ⟨id, rest⟩, refused]
    rfl
  case admitted =>
    obtain ⟨id, -, rest⟩ := legal
    have admits : (took .display s).admits = true := (admits_congr rfl).trans ((admits_iff s).2 room)
    refine runs_served (t := lookPass _) h ?_
    simp only [serve, serveUpdate, ReqKind.stream, updateCheck_legal mode ⟨id, rest⟩, admits]
    exact congrArg lookPass (respond_eq_replied h _ _ _)

/-- Settles O15: the checks of R68 in order, and a new entry. -/
theorem cacheOpenMakesEntry : Obligations.CacheOpenMakesEntry := by
  refine fun s r h => ⟨fun bad => ?range, fun d m legal list mode => ?_⟩
  case range => exact runs_refused h (serveCacheOpen_range _ bad)
  obtain ⟨-, page, fill⟩ := legal
  have served := serveCacheOpen_legal (took .display s) list mode page fill
  refine ⟨fun full => ?full, fun short few => ?room, fun short enough => ?opened⟩
  case full => exact runs_refused h (served.trans (if_pos full))
  case room => exact runs_answered h (served.trans ((if_neg (Nat.not_le.2 short)).trans (if_pos few)))
  case opened =>
    exact runs_answered h (served.trans ((if_neg (Nat.not_le.2 short)).trans (if_neg (Nat.not_lt.2 enough))))

/-- Settles O17: TURN answers what its attempt comes to, and R72 judges the misses in order. -/
theorem turnOutcomes : Obligations.TurnOutcomes := by
  refine ⟨fun s r h => ?_, fun s d => ?_⟩
  · have same (d : Dir) : (took .display s).turnMiss d = s.turnMiss d := turnMiss_congr d rfl rfl rfl
    refine ⟨fun above => ?range, fun d m dir miss => ?miss, fun d dir turns => ?turn⟩
    case range =>
      refine runs_refused h ?_
      simp only [serve, serveTurn, dirOf_none above]
    case miss =>
      refine runs_answered h ?_
      simp only [serve, serveTurn, ReqKind.stream, dir, dirOf_code, same, miss, turnAttempt_miss ((same d).trans miss)]
      rw [appendTurn_tag]
      rfl
    case turn =>
      obtain ⟨e, rest, head, -⟩ := turnMiss_none turns
      refine ⟨e, rest, head, runs_answered h ?_⟩
      simp only [serve, serveTurn, ReqKind.stream, dir, dirOf_code, same, turns,
        turnAttempt_turns ((same d).trans turns) (show (took .display s).cache.list d = e :: rest from head), turnNow_tag]
      rfl
  · refine ⟨fun empty => ?empty, fun e rest head => ⟨fun opened => ?notReady, fun ready => ?judged⟩⟩
    case empty => simp only [State.turnMiss, empty]
    case notReady => simp only [State.turnMiss, head, opened, if_true]
    case judged =>
      obtain ⟨busy, dirty, idle⟩ := turnMiss_ready head ready
      have clean (none : ∀ t ∈ s.img.tiles, t.pending = false) : s.anyPending = false := by
        rw [Bool.eq_false_iff, ne_eq, anyPending_iff]
        rintro ⟨t, mem, pending⟩
        rw [none t mem] at pending
        cases pending
      exact ⟨busy, fun not some => dirty not ((anyPending_iff s).2 some),
        fun not none full => (idle not (clean none)).trans (if_pos full),
        fun not none room => (idle not (clean none)).trans (if_neg (Nat.not_le.2 room))⟩

/-- Settles O18: the exchange written out, and what a turn adds to it. -/
theorem turnExchangesPages : Obligations.TurnExchangesPages := by
  refine ⟨fun s d e rest => ?_, fun s d src place e rest => ?_⟩
  · obtain ⟨own, other⟩ := turnLists_list s d e rest
    refine ⟨rfl, rfl, rfl, (turnLists_records s d e rest).1, own, other, fun room => ?_, rfl, rfl, rfl, rfl, rfl, rfl, rfl,
      rfl, rfl, rfl, rfl⟩
    simp only [exchange, overflow_eq, if_pos room]
    rfl
  · refine ⟨fun m miss => turnAttempt_miss miss src place, fun turns head => turnAttempt_turns turns head src place,
      fun room => ?recorded, fun full => ?lost, fun t fallen => ?fallen⟩
    case recorded => exact congrArg (fun u => lookPass (creditPoint u)) (turnRecord_appended d src place e rest room)
    case lost => exact congrArg (fun u => lookPass (creditPoint u)) (turnRecord_lost d src place e rest full)
    case fallen =>
      have over_ : s.overflow d = some t := fallen
      simp only [exchange, over_]
      simp [swapSlabs, freeSlabs]

end Sys2Proof.Claims
end

section
namespace Sys2Proof.Machine

open Sys2Proof Sys2Proof.Claims

/-! ## ABORT (R49) -/

/-- Nothing of a matching id waits in the queue or goes on driving. -/
def State.aborted (id : Option Nat) (s : State) : Prop :=
  (∀ e ∈ s.eng.queue, matchesId id e.id = false) ∧
    ∀ l, some l ∈ s.eng.lanes → matchesId id l.id = true → l.state = .stopping

section

variable {id : Option Nat}

/-- Whether anything matching is left depends on the engine alone. -/
theorem aborted_of_eng_eq {s t : State} (h : t.eng = s.eng) (aborted : s.aborted id) : t.aborted id := by
  simpa [State.aborted, h] using aborted

/-- Entries that leave the queue, or get a pick record, leave nothing matching behind. -/
theorem aborted_of_ids {s t : State} (aborted : s.aborted id) (lanes : t.eng.lanes = s.eng.lanes)
    (ids : ∀ e ∈ t.eng.queue, ∃ a ∈ s.eng.queue, e.id = a.id) : t.aborted id := by
  refine ⟨fun e he => ?_, by rw [lanes]; exact aborted.2⟩
  obtain ⟨a, ha, same⟩ := ids e he
  rw [same]
  exact aborted.1 a ha

theorem endEntry_aborted (e : QEntry) (status : Status) (m : Mode) (p : Bool) {s : State} (h : s.aborted id) :
    (endEntry e status m p s).aborted id := by
  refine aborted_of_ids h (by simp [endEntry, appendCompletion_eng]) fun a ha => ⟨a, ?_, rfl⟩
  simp only [endEntry, appendCompletion_eng, dropEntry, List.mem_filter] at ha
  exact ha.1

theorem sendClaim_aborted (e : QEntry) (p : Pick) {s : State} (h : s.aborted id) : (sendClaim e p s).aborted id := by
  refine aborted_of_ids h (by simp [sendClaim]) fun a ha => ?_
  obtain ⟨a', ha', rfl⟩ := List.mem_map.1 (show a ∈ s.eng.queue.map (setPick e.num p) from ha)
  refine ⟨a', ha', ?_⟩
  unfold setPick
  split <;> rfl

theorem lookLoop_aborted (n : Nat) {s : State} (h : s.aborted id) : (lookLoop n s).aborted id := by
  induction n generalizing s with
  | zero => exact h
  | succ n ih =>
    simp only [lookLoop]
    repeat' split
    · exact h
    · exact h
    · exact aborted_of_eng_eq (by simp) h
    · exact h
    · exact ih (endEntry_aborted _ _ _ _ h)
    · exact ih (endEntry_aborted _ _ _ _ h)
    · exact sendClaim_aborted _ _ h

theorem startLane_aborted {s : State} (h : s.aborted id) : (startLane s).aborted id := by
  cases claiming : s.claimingEntry with
  | none => simpa [startLane, claiming] using h
  | some e =>
    cases picked : e.pick with
    | none => simpa [startLane, claiming, picked] using h
    | some p =>
      obtain ⟨queue, -, -, lanes⟩ := startLane_eng claiming picked
      refine ⟨fun a ha => ?_, fun l hl matches_ => ?_⟩
      · rw [queue] at ha
        exact h.1 a (List.mem_filter.1 ha).1
      · rw [lanes] at hl
        rcases List.mem_or_eq_of_mem_set hl with old | new
        · exact h.2 l old matches_
        · cases new
          rw [laneOf, h.1 e (claimingEntry_mem claiming)] at matches_
          cases matches_

theorem passLoop_aborted (n : Nat) {s : State} (h : s.aborted id) : (passLoop n s).aborted id := by
  have granted (c : Claim) (u : State) (hu : u.aborted id) : (grantClaim c u).aborted id := by
    unfold grantClaim
    split
    · exact lookLoop_aborted _ (startLane_aborted (aborted_of_eng_eq (by simp) hu))
    · exact aborted_of_eng_eq (by simp) hu
  induction n generalizing s with
  | zero => exact h
  | succ n ih =>
    unfold passLoop
    repeat' split
    · exact aborted_of_eng_eq (by simp) h
    · exact ih (granted _ _ h)
    · exact ih (granted _ _ (aborted_of_eng_eq (by simp) h))
    · exact h

theorem decisionPass_aborted {s : State} (h : s.aborted id) : (decisionPass s).aborted id := passLoop_aborted _ h

theorem lookPass_aborted {s : State} (h : s.aborted id) : (lookPass s).aborted id := by
  have looked : (look s).aborted id := lookLoop_aborted _ h
  simp only [lookPass]
  split
  · exact looked
  · exact decisionPass_aborted looked

end

/-- The queue and the lanes after entries are aborted: their numbers are gone, and the lanes are as before. -/
theorem abortEntries_eng (es : List QEntry) (s : State) :
    (∀ e, e ∈ (es.foldl abortEntry s).eng.queue ↔ e ∈ s.eng.queue ∧ ∀ a ∈ es, e.num ≠ a.num) ∧
      (es.foldl abortEntry s).eng.lanes = s.eng.lanes := by
  induction es generalizing s with
  | nil => simp
  | cons a es ih =>
    obtain ⟨queue, lanes⟩ := ih (abortEntry s a)
    refine ⟨fun e => ?_, by rw [List.foldl_cons, lanes, abortEntry_eng]⟩
    rw [List.foldl_cons, queue, abortEntry_eng]
    simp [and_assoc]

/-- Marking a matching lane STOPPING, by what it becomes. -/
theorem markStopping_eq (id : Option Nat) (l : Lane) :
    markStopping id l = if matchesId id l.id = true then { l with state := .stopping } else l := by
  unfold markStopping Lane.abortable
  by_cases matches_ : matchesId id l.id = true
  · by_cases stopping : l.state = .stopping
    · obtain ⟨⟩ := l; simp_all
    · simp [matches_, stopping]
  · simp [matches_]

/-- Every matching lane is marked STOPPING. -/
def markLanes (id : Option Nat) (u : State) : State :=
  { u with eng := { u.eng with lanes := u.eng.lanes.map fun l => l.map (markStopping id) } }

/-- With no matching entry queued, marking the lanes leaves nothing matching. -/
theorem markLanes_aborted {id : Option Nat} {u : State} (queue : ∀ e ∈ u.eng.queue, matchesId id e.id = false) :
    (markLanes id u).aborted id := by
  refine ⟨queue, fun l hl matches_ => ?_⟩
  obtain ⟨old, -, marks⟩ := List.mem_map.1 hl
  cases old with
  | none => cases marks
  | some old =>
    rw [Option.map_some, Option.some_inj, markStopping_eq] at marks
    split at marks
    · rw [← marks]
    · rename_i not
      rw [marks] at not
      exact absurd matches_ not

/-- No matching entry is queued once they are aborted. -/
theorem abortEntries_queue (id : Option Nat) (s : State) :
    ∀ e ∈ ((s.abortEntries id).foldl abortEntry s).eng.queue, matchesId id e.id = false := by
  intro e he
  obtain ⟨listed, others⟩ := ((abortEntries_eng (s.abortEntries id) s).1 e).1 he
  refine Classical.byContradiction fun matches_ => ?_
  rw [Bool.not_eq_false] at matches_
  refine others e ?_ rfl
  cases picked : e.pick <;> simp [State.abortEntries, listed, matches_, picked]

/-- ABORT leaves nothing matching in the queue or driving. -/
theorem abortNow_aborted (id : Option Nat) (s : State) : (abortNow id s).aborted id := by
  have marked := markLanes_aborted (abortEntries_queue id s)
  simp only [abortNow]
  repeat' split
  · exact decisionPass_aborted marked
  · exact marked
  · exact lookPass_aborted (decisionPass_aborted marked)
  · exact lookPass_aborted marked

/-- ABORT, by whether a CLAIMING entry matches and whether any entry does. -/
theorem abortNow_eq (id : Option Nat) (s : State) : abortNow id s =
    let marked := markLanes id ((s.abortEntries id).foldl abortEntry s)
    let passed := if (s.eng.queue.filter fun e => matchesId id e.id && e.pick.isSome) = [] then marked
      else decisionPass marked
    if s.abortEntries id = [] then passed else lookPass passed := by
  have claims : (s.abortEntries id).any (fun e => e.pick.isSome) = true ↔
      ¬ (s.eng.queue.filter fun e => matchesId id e.id && e.pick.isSome) = [] := by
    simp only [State.abortEntries, List.any_append, Bool.or_eq_true, List.any_eq_true, List.mem_filter,
      List.filter_eq_nil_iff]
    grind
  simp only [abortNow, claims, List.isEmpty_iff, ite_not, markLanes]

/-- The count that ABORT answers: the matching entries, and the matching lanes not yet STOPPING. -/
theorem abortCount_eq (id : Option Nat) (s : State) : s.abortCount id =
    (s.eng.queue.countP fun e => matchesId id e.id) + s.eng.lanes.countP fun l => match l with
      | some l => matchesId id l.id && l.state != .stopping
      | none => false := by
  have entries : (s.abortEntries id).length = s.eng.queue.countP fun e => matchesId id e.id := by
    rw [State.abortEntries, List.length_append, ← List.countP_eq_length_filter, ← List.countP_eq_length_filter,
      List.countP_eq_countP_filter_add s.eng.queue (fun e => matchesId id e.id) (fun e => e.pick.isNone),
      List.countP_filter, List.countP_filter]
    congr 1
    exact List.countP_congr fun e _ => by cases e.pick <;> simp
  rw [State.abortCount, entries]
  rfl

end Sys2Proof.Machine

namespace Sys2Proof.Claims

open Sys2Proof Sys2Proof.Machine

/-- Settles O13: the removal of an entry written out, and that nothing matching is left by the passes that follow. -/
theorem abortClearsMatches : Obligations.AbortClearsMatches := by
  refine fun s r h => ⟨fun above => ?range, ?aborts⟩
  case range => exact runs_refused h (if_pos above)
  case aborts =>
    intro small id count waiting claiming unclaimed removed gone marked passed t
    have entry : removed = abortEntry := by
      funext u e
      cases picked : e.pick <;> simp only [removed, abortEntry, QEntry.abortRecord, withdrawEngine, picked] <;> rfl
    have gone_eq : gone = ((took .display s).abortEntries id).foldl abortEntry (took .display s) :=
      congrArg (fun f => (waiting ++ claiming).foldl f (took .display s)) entry
    have now : abortNow id (took .display s) = t := by
      have marks : marked = markLanes id gone := by
        have lanes : s.eng.lanes = gone.eng.lanes := by rw [gone_eq, (abortEntries_eng _ _).2]; rfl
        simp only [marked, lanes, markLanes, show markStopping id = _ from funext (markStopping_eq id)]
      rw [abortNow_eq, ← gone_eq]
      simp only [← marks]
      rfl
    have done := abortNow_aborted id (took .display s)
    rw [now] at done
    refine ⟨runs_answered h ?_, done⟩
    have answered : count = (took .display s).abortCount id := (abortCount_eq id _).symm
    rw [answered, ← now]
    exact if_neg (Nat.not_lt.2 small)

end Sys2Proof.Claims
end

section
namespace Sys2Proof.Machine

open Sys2Proof Sys2Proof.Claims

/-! ## PIXELS (R9 to R14) -/

/-- PIXELS is refused RANGE by its destination, its format or its rectangle (R9 checks 1 to 4). -/
theorem pixelsCheck_range {s : State} {b : List Byte} (range : ¬ (byteAt b 0 < 8 ∨ byteAt b 0 = 0xFF) ∨ 1 < byteAt b 1 ∨
    ¬ ((rectAt b 2).x0 ≤ (rectAt b 2).x1 ∧ (rectAt b 2).y0 ≤ (rectAt b 2).y1 ∧ (rectAt b 2).x0 ≤ 1599 ∧
      (rectAt b 2).y0 ≤ 1199)) : s.pixelsCheck b = some .range := by
  rw [← Rect.legal_iff, Bool.not_eq_true] at range
  exact if_pos range

/-- The payload length of a rectangle, by the format. -/
theorem payloadBytes_eq (format n : Nat) : payloadBytes (format == 1) n = if format = 1 then (n + 1) / 2 else n := by
  simp [payloadBytes]

/-- A packet for the panel or an OPEN entry passes check 6 (R9). -/
theorem entryOpen_eq_false_iff (s : State) (n : Nat) : s.entryOpen n = false ↔
    ∀ e, s.cache.entries.find? (fun e => e.num == n) = some e → e.isOpen = false := by
  unfold State.entryOpen PageCache.find
  cases s.cache.entries.find? fun e => e.num == n <;> simp

/-- PIXELS with legal fields is refused LENGTH or STATE, or accepted (R9 checks 5 and 6). -/
theorem pixelsCheck_legal {s : State} {b : List Byte} (dest : byteAt b 0 < 8 ∨ byteAt b 0 = 0xFF) (format : byteAt b 1 ≤ 1)
    (rect : (rectAt b 2).legal = true) : s.pixelsCheck b =
      if (b.drop 10).length ≠ payloadBytes (byteAt b 1 == 1) (rectAt b 2).pixels ∨ 4096 < (b.drop 10).length then
        some .length
      else if byteAt b 0 ≠ 0xFF ∧ s.entryOpen (byteAt b 0) = false then some .state else none := by
  unfold State.pixelsCheck
  exact if_neg (by rw [rect]; simp; omega)

/-- What an accepted PIXELS body is: legal fields, and a payload of its rectangle's length. -/
theorem pixelsCheck_none {s : State} {b : List Byte} (h : s.pixelsCheck b = none) :
    (rectAt b 2).legal = true ∧ byteAt b 1 ≤ 1 ∧
      (b.drop 10).length = payloadBytes (byteAt b 1 == 1) (rectAt b 2).pixels := by
  unfold State.pixelsCheck at h
  simp only at h
  split at h
  · cases h
  · rename_i range
    split at h
    · cases h
    · rename_i length
      simp only [not_or, Nat.not_lt, ne_eq, Classical.not_not] at range length
      exact ⟨by simpa using range.2.2, range.2.1, length.1⟩

/-- A packet is held when its tiles meet an owned tile or an older held packet (R12). -/
theorem mustHold_iff (s : State) (p : HeldPacket) : s.mustHold s.img.held p = true ↔
    s.owned p.tiles = true ∨ ∃ h ∈ s.img.held, h.tiles.meets p.tiles = true := by
  simp [State.mustHold]

/-- A packet fits when the held-write list has room for it (R13). -/
theorem heldFits_iff (s : State) (p : HeldPacket) : s.heldFits p = true ↔
    (s.img.held.map fun h => h.payload + 16).sum + (p.payload + 16) ≤ 65536 := by
  rw [State.heldFits, decide_eq_true_iff]
  rfl

section

variable {s : State} {r : Request} {p : HeldPacket}

theorem placePacket_lands (h : s.mustHold s.img.held p = false) :
    placePacket r p s = respond r .ok [] (landPacket p { s with img := { s.img with stall := none } }) := by
  simp [placePacket, h]

theorem placePacket_holds (h : s.mustHold s.img.held p = true) (fits : s.heldFits p = true) :
    placePacket r p s = respond r .ok [] { s with img := { s.img with held := s.img.held ++ [p], stall := none } } := by
  simp [placePacket, h, fits]

theorem placePacket_stalls (h : s.mustHold s.img.held p = true) (full : s.heldFits p = false) :
    placePacket r p s = { s with img := { s.img with stall := some (r, p) } } := by
  simp [placePacket, h, full]

end

/-! ## Conversion (R10) -/

/-- A converted GRAY8 byte, by the tone map. -/
theorem levelsOf_gray8 (toneMap : List Nat) (n : Nat) (data : List Byte) {i : Nat} (hi : i < data.length) :
    (levelsOf toneMap false n data).getD i 0 = toneMap.getD (byteAt data i) 0 := by
  simp [levelsOf, byteAt, hi]

/-- The two levels of each LEVEL4 byte, high half first. -/
theorem getD_halves (data : List Byte) (i : Nat) : (data.flatMap halves).getD i 0 =
    if i % 2 = 0 then byteAt data (i / 2) / 16 else byteAt data (i / 2) % 16 := by
  induction data generalizing i with
  | nil => simp [byteAt]
  | cons d data ih =>
    match i with
    | 0 => simp [halves, byteAt]
    | 1 => simp [halves, byteAt]
    | i + 2 =>
      have next := ih i
      simpa [halves, byteAt, show (i + 2) / 2 = i / 2 + 1 by omega] using next

/-- Each LEVEL4 byte gives two levels. -/
theorem length_halves (data : List Byte) : (data.flatMap halves).length = 2 * data.length := by
  induction data with
  | nil => rfl
  | cons d data ih => simp [halves, ih]; omega

/-- A converted LEVEL4 half byte. -/
theorem levelsOf_level4 (toneMap : List Nat) {n : Nat} (data : List Byte) {i : Nat} (hi : i < n) :
    (levelsOf toneMap true n data).getD i 0 = if i % 2 = 0 then byteAt data (i / 2) / 16 else byteAt data (i / 2) % 16 := by
  rw [← getD_halves data i, levelsOf, if_pos rfl, List.getD_eq_getElem?_getD, List.getElem?_take_of_lt hi,
    List.getD_eq_getElem?_getD]

/-- A payload of its rectangle's length gives a level to each pixel. -/
theorem length_levelsOf (toneMap : List Nat) (level4 : Bool) (n : Nat) (data : List Byte)
    (h : data.length = payloadBytes level4 n) : (levelsOf toneMap level4 n data).length = n := by
  cases level4 with
  | false => simpa [levelsOf, payloadBytes] using h
  | true =>
    have enough : n ≤ 2 * data.length := by rw [h]; simp only [payloadBytes, if_true]; omega
    rw [levelsOf, if_pos rfl, List.length_take, length_halves, Nat.min_eq_left enough]

end Sys2Proof.Machine

namespace Sys2Proof.Claims

open Sys2Proof Sys2Proof.Machine

/-- Settles O14: the checks in order, the three fates of a packet, the conversion, and the plane laws of Laws/Planes. -/
theorem pixelsPackets : Obligations.PixelsPackets := by
  refine ⟨fun s r h => ?checks, fun s r h good => ?fates, fun s b good => ?converts, fun p q r levels f fill hx hy hl => ?planes⟩
  case checks =>
    intro b q range n length state
    have refused {c : Code} (check : (took ReqKind.pixels.stream s).pixelsCheck r.body = some c) :
        runs .pixels s (refusedWith .pixels r c s) :=
      runs_refused h (by simp only [serve, servePixels, check])
    refine ⟨fun bad => refused (pixelsCheck_range bad), fun fields bad => refused ?_, fun fields long bad => refused ?_⟩
    all_goals
      obtain ⟨dest, fields⟩ := not_or.1 fields
      obtain ⟨format, rect⟩ := not_or.1 fields
      rw [Classical.not_not] at dest rect
      rw [Nat.not_lt] at format
      rw [pixelsCheck_legal dest format ((Rect.legal_iff _).2 rect)]
      have len : payloadBytes (byteAt b 1 == 1) (rectAt b 2).pixels = if byteAt b 1 = 0 then n else (n + 1) / 2 := by
        rw [payloadBytes_eq]
        rcases (by omega : byteAt b 1 = 0 ∨ byteAt b 1 = 1) with h | h <;> rw [h] <;> rfl
      rw [len]
    · exact if_pos bad
    · rw [if_neg long, if_pos ⟨bad.1, (entryOpen_eq_false_iff _ _).2 bad.2⟩]
  case fates =>
    intro u p hold fits
    have holds : u.mustHold u.img.held p = true ↔ hold := mustHold_iff u p
    have room : u.heldFits p = true ↔ fits := heldFits_iff u p
    have served : serve .pixels r (took ReqKind.pixels.stream s) = if byteAt r.body 0 = 0xFF then placePacket r p u
        else respond r .ok [] (writeEntry (byteAt r.body 0) p u) := by
      simp only [serve, servePixels]
      rw [show (took ReqKind.pixels.stream s).pixelsCheck r.body = none from good]
      rfl
    refine ⟨fun panel free => runs_answered h ?_, fun panel held room' => runs_answered h ?_,
      fun panel held full => runs_served h ?_, fun entry => runs_answered h ?_⟩
    · rw [served, if_pos panel, placePacket_lands (Bool.eq_false_iff.2 (mt holds.1 free))]; rfl
    · rw [served, if_pos panel, placePacket_holds (holds.2 held) (room.2 room')]; rfl
    · rw [served, if_pos panel, placePacket_stalls (holds.2 held) (Bool.eq_false_iff.2 (mt room.1 full))]; rfl
    · rw [served, if_neg entry]; rfl
  case converts =>
    intro p q data
    obtain ⟨rect, format, length⟩ := pixelsCheck_none good
    have full : p.levels.length = (q.x1 - q.x0 + 1) * (q.y1 - q.y0 + 1) := length_levelsOf _ _ _ _ length
    refine ⟨rfl, rfl, rfl, full, fun gray i hi => ?_, fun level4 i hi => ?_, rfl⟩
    · have bytes : data.length = (q.x1 - q.x0 + 1) * (q.y1 - q.y0 + 1) := by
        rw [payloadBytes_eq, gray] at length
        exact length
      simp only [p, State.convertPixels, gray]
      exact levelsOf_gray8 _ _ data (by omega)
    · simp only [p, State.convertPixels, level4]
      exact levelsOf_level4 _ data (lt_of_lt_of_eq hi full)
  case planes =>
    intro rises
    have full : r.full levels := ⟨hx, hy, hl⟩
    refine ⟨fun k hk => ?_, fun hp => ⟨rising_planeWrite r full hp, rising_writeCells r full hp, rising_planeMap f r hp,
      rising_planeFill fill hp, fun hq => rising_planeCopy r hp hq⟩⟩
    intro listed within sent
    refine ⟨?_, ?_, ?_, fun hp => ⟨?_, level_planeFill fill hp k hk⟩⟩
    · simp only [within, level_planeWrite p r full hk, Rect.holds_iff]; rfl
    · have written := look_writeCells p r full hk
      simp only [Rect.holds_iff] at written
      exact written
    · simp only [within, level_planeCopy, Rect.holds_iff]
    · simp only [within, level_planeMap f r hp k hk, Rect.holds_iff]

end Sys2Proof.Claims
end

section
namespace Sys2Proof.Machine

open Sys2Proof Sys2Proof.Claims

/-! ## Waveform records (R20 to R26) -/

/-- A load is open when some record is LOADING. -/
theorem openLoad_eq_none_iff (s : State) : s.openLoad = none ↔ ¬ ∃ w ∈ s.wav.waves, w.state = .loading := by
  simp [State.openLoad]

/-- The open load is a LOADING record of the store. -/
theorem openLoad_some {s : State} {w : Wave} (h : s.openLoad = some w) : w ∈ s.wav.waves ∧ w.state = .loading :=
  ⟨List.mem_of_find?_eq_some h, by simpa using List.find?_some h⟩

/-- The fields of WAVE_BEGIN that are legal (R20 check 2). -/
theorem waveFieldsOk_iff (s : State) (mode band phases : Nat) : s.waveFieldsOk mode band phases = true ↔
    mode ≤ 3 ∧ band < s.wav.table.count ∧ 1 ≤ phases := by
  have mode_iff : (modeOf mode).isSome = true ↔ mode ≤ 3 := by
    rw [Option.isSome_iff_ne_none, ne_eq, modeOf_eq_none_iff, Nat.not_lt]
  simp [State.waveFieldsOk, mode_iff, and_assoc]

/-- WAVE_BEGIN with no open load and a good mode (R20). -/
theorem serveWaveBegin_mode {r : Request} {s : State} {m : Mode} (idle : s.openLoad = none)
    (mode : modeOf (byteAt r.body 0) = some m) : serveWaveBegin r s =
      if s.waveFieldsOk (byteAt r.body 0) (byteAt r.body 1) (byteAt r.body 2) = false then respond r .range [] s
      else if s.freeUnits < byteAt r.body 2 then respond r .room (le16 s.freeUnits) s
      else respond r .ok [] (openWave m (byteAt r.body 1) (byteAt r.body 2) (byteAt r.body 3) s) := by
  unfold serveWaveBegin
  simp [idle, mode, State.unitsFit]

/-- A list in whole pieces has one piece for each whole length. -/
theorem length_piecesGo (n fuel : Nat) (bs : List Byte) (enough : bs.length ≤ fuel) (whole : bs.length % (n + 1) = 0) :
    (piecesGo n fuel bs).length = bs.length / (n + 1) := by
  induction fuel generalizing bs with
  | zero =>
    obtain rfl := List.length_eq_zero_iff.1 (Nat.le_zero.1 enough)
    simp [piecesGo]
  | succ fuel ih =>
    cases bs with
    | nil => simp [piecesGo]
    | cons b bs =>
      have long : n + 1 ≤ (b :: bs).length := Nat.le_of_dvd (by simp) (Nat.dvd_of_mod_eq_zero whole)
      have rest : ((b :: bs).drop (n + 1)).length = (b :: bs).length - (n + 1) := List.length_drop ..
      have pieces := ih ((b :: bs).drop (n + 1)) (by rw [rest]; omega) (by rw [rest, ← Nat.mod_eq_sub_mod long, whole])
      rw [Nat.div_eq (b :: bs).length, if_pos ⟨Nat.succ_pos n, long⟩, ← rest, ← pieces]
      rfl

/-- A record leaves its slot: RETIRED if it is in use, and freed if it is not (R24). -/
def leaveSlots (p : Wave → Prop) [DecidablePred p] (waves : List Wave) : List Wave :=
  (waves.map fun w => if p w then { w with state := .retired } else w).filter fun w => !(w.state == .retired && !w.inUse)

section

variable {p : Wave → Prop} [DecidablePred p] {waves : List Wave}

/-- What is left after records leave their slots. -/
theorem mem_leaveSlots {v : Wave} : v ∈ leaveSlots p waves ↔
    (∃ w ∈ waves, v = if p w then { w with state := .retired } else w) ∧ (v.state = .retired → v.inUse = true) := by
  simp only [leaveSlots, List.mem_filter, List.mem_map, Bool.not_eq_true', Bool.and_eq_false_iff, eq_comm (a := v)]
  cases v.state <;> simp

/-- A record in use that leaves its slot is RETIRED. -/
theorem retired_mem_leaveSlots {v : Wave} (hv : v ∈ waves) (leaves : p v) (used : v.inUse = true) :
    { v with state := .retired } ∈ leaveSlots p waves :=
  mem_leaveSlots.2 ⟨⟨v, hv, (if_pos leaves).symm⟩, fun _ => used⟩

/-- A record that leaves its slot while not in use is freed. -/
theorem retired_not_mem_leaveSlots {v : Wave} (unused : v.inUse = false) :
    { v with state := .retired } ∉ leaveSlots p waves := fun listed => by
  have used : v.inUse = true := (mem_leaveSlots.1 listed).2 rfl
  rw [unused] at used
  cases used

/-- A record of a slot that is left is not listed as it was. -/
theorem not_mem_leaveSlots {v : Wave} (leaves : p v) (installed : v.state ≠ .retired) : v ∉ leaveSlots p waves := fun listed => by
  obtain ⟨⟨w, -, same⟩, -⟩ := mem_leaveSlots.1 listed
  split at same
  · rw [same] at installed; exact installed rfl
  · rename_i stays; rw [← same] at stays; exact stays leaves

/-- A record of no slot that is left stays, unless it is RETIRED and out of use. -/
theorem mem_leaveSlots_of_stays {v : Wave} (hv : v ∈ waves) (stays : ¬ p v) (used : v.state = .retired → v.inUse = true) :
    v ∈ leaveSlots p waves :=
  mem_leaveSlots.2 ⟨⟨v, hv, (if_neg stays).symm⟩, used⟩

end

/-- A record of a slot. -/
abbrev Wave.inSlot (m : Mode) (b : Nat) (w : Wave) : Prop := w.state = .installed ∧ w.mode = m ∧ w.band = b

/-- The slot of a mode and a band is left. -/
theorem retireSlot_waves (m : Mode) (b : Nat) (s : State) :
    (retireSlot m b s).wav.waves = leaveSlots (Wave.inSlot m b) s.wav.waves := rfl

/-! ## The band walk (R27) -/

/-- The move up of R27 applies at a band. -/
abbrev BandTable.rises (t : BandTable) (temp : Int) (k : Nat) : Prop := k + 1 < t.count ∧ t.bounds.getD k 0 + t.hyst ≤ temp

/-- The move down of R27 applies at a band. -/
abbrev BandTable.falls (t : BandTable) (temp : Int) (k : Nat) : Prop := 0 < k ∧ temp < t.bounds.getD (k - 1) 0 - t.hyst

/-- A band of the table where neither move applies. -/
abbrev BandTable.rests (t : BandTable) (temp : Int) (k : Nat) : Prop := k < t.count ∧ ¬ t.rises temp k ∧ ¬ t.falls temp k

/-- A walk that begins with a move up never moves down. -/
theorem moveBand_up (t : BandTable) (temp : Int) (fuel k : Nat) (enough : t.count ≤ k + fuel + 1) (inside : k < t.count)
    (goes : t.rises temp k ∨ ¬ t.falls temp k) : t.rests temp (moveBand t temp fuel k) := by
  induction fuel generalizing k with
  | zero =>
    have last : ¬ t.rises temp k := fun up => absurd up.1 (by omega)
    exact ⟨inside, last, goes.resolve_left last⟩
  | succ fuel ih =>
    unfold moveBand
    by_cases up : t.rises temp k
    · rw [if_pos up]
      refine ih (k + 1) (by omega) up.1 (.inr fun down => ?_)
      obtain ⟨-, low⟩ := down
      have high := up.2
      rw [Nat.add_sub_cancel] at low
      omega
    · have stays := goes.resolve_left up
      rw [if_neg up, if_neg stays]
      exact ⟨inside, up, stays⟩

/-- A walk that does not begin with a move up never moves up. -/
theorem moveBand_down (t : BandTable) (temp : Int) (fuel k : Nat) (enough : k ≤ fuel) (inside : k < t.count)
    (stays : ¬ t.rises temp k) : t.rests temp (moveBand t temp fuel k) := by
  induction fuel generalizing k with
  | zero => exact ⟨inside, stays, fun down : t.falls temp k => absurd down.1 (by omega)⟩
  | succ fuel ih =>
    unfold moveBand
    rw [if_neg stays]
    by_cases down : t.falls temp k
    · rw [if_pos down]
      refine ih (k - 1) (by omega) (by omega) fun up => ?_
      have low := down.2
      have high := up.2
      omega
    · rw [if_neg down]
      exact ⟨inside, stays, down⟩

/-- The band walk from a band of the table ends in one where neither move applies. -/
theorem moveBand_rests (t : BandTable) (temp : Int) (k : Nat) (inside : k < t.count) :
    t.rests temp (moveBand t temp t.count k) := by
  by_cases up : t.rises temp k
  · exact moveBand_up t temp _ k (by omega) inside (.inl up)
  · exact moveBand_down t temp _ k (Nat.le_of_lt inside) inside up

/-! ## BANDS (R26) -/

/-- The first three fields of BANDS (R26 checks 1 to 3). -/
theorem bandsCheck_unsized {b : List Byte} (h : ¬ (1 ≤ byteAt b 0 ∧ byteAt b 0 ≤ 12 ∧ byteAt b 1 ≤ 50)) :
    bandsCheck b = some .range := by
  unfold bandsCheck
  exact if_pos (by omega)

/-- BANDS with legal fields: LENGTH by the count of its boundaries, then RANGE unless they rise (R26). -/
theorem bandsCheck_sized {b : List Byte} (h : 1 ≤ byteAt b 0 ∧ byteAt b 0 ≤ 12 ∧ byteAt b 1 ≤ 50) : bandsCheck b =
    if (boundsOf b).length ≠ byteAt b 0 - 1 then some .length
    else if ¬ (boundsOf b).Pairwise (· < ·) then some .range else none := by
  unfold bandsCheck
  rw [if_neg (by omega)]
  congr 1
  · exact propext (by omega)
  · congr 1
    rw [← risingInts_iff, Bool.not_eq_true]

end Sys2Proof.Machine

namespace Sys2Proof.Claims

open Sys2Proof Sys2Proof.Machine

/-- Settles O19: the checks of a load in order, and what an installed load leaves in the slots. -/
theorem waveformLoad : Obligations.WaveformLoad := by
  refine ⟨fun s r h => ?begins, fun s r h => ⟨fun idle => ?idleData, fun w loading => ?data⟩,
    fun s r h => ⟨fun idle => ?idleEnd, fun w loading => ?ends⟩⟩
  case begins =>
    intro b busy legal
    have idle_iff : (took .display s).openLoad = none ↔ ¬ busy := openLoad_eq_none_iff s
    have fields_iff : (took .display s).waveFieldsOk (byteAt b 0) (byteAt b 1) (byteAt b 2) = true ↔ legal :=
      waveFieldsOk_iff ..
    have loads (idle : ¬ busy) {m : Mode} (mode : byteAt b 0 = m.code) := serveWaveBegin_mode (r := r)
      (idle_iff.2 idle) (mode ▸ modeOf_code m)
    refine ⟨fun open' => runs_refused h ?_, fun idle bad => runs_refused h ?_, fun idle good full => ?_,
      fun idle good fits m mode => ?_⟩
    · have loading : (took .display s).openLoad.isSome = true := by
        rw [Option.isSome_iff_ne_none]; exact fun none => idle_iff.1 none open'
      exact if_pos loading
    · by_cases mode : byteAt b 0 ≤ 3
      · obtain ⟨m, -, named⟩ := modeOf_some mode
        exact (loads idle named).trans (if_pos (Bool.eq_false_iff.2 (mt fields_iff.1 bad)))
      · simp only [serve, serveWaveBegin]
        rw [modeOf_none (Nat.not_le.1 mode)]
        exact if_neg (by rw [show (took ReqKind.waveBegin.stream s).openLoad = none from idle_iff.2 idle]; decide)
    · obtain ⟨m, -, named⟩ := modeOf_some good.1
      exact runs_answered h ((loads idle named).trans (by rw [if_neg (by rw [fields_iff.2 good]; decide)]; exact if_pos full))
    · exact runs_answered h ((loads idle mode).trans (by
        rw [if_neg (by rw [fields_iff.2 good]; decide)]; exact if_neg (Nat.not_lt.2 fits)))
  case idleData => exact runs_refused h (by
    simp only [serve, serveWaveData]
    rw [show (took ReqKind.waveData.stream s).openLoad = none from idle])
  case data =>
    intro run first
    have served : serve .waveData r (took ReqKind.waveData.stream s) =
        if run.length % 64 ≠ 0 then respond r .length [] (took .display s)
        else if w.phases.length < first + run.length / 64 then respond r .range [] (took .display s)
        else respond r .ok [] (fillWave first (phaseUnitsOf run) w (took .display s)) := by
      simp only [serve, serveWaveData]
      rw [show (took ReqKind.waveData.stream s).openLoad = some w from loading]
      rfl
    refine ⟨fun part => runs_refused h (served.trans (if_pos part)), fun whole past => runs_refused h ?_,
      fun whole fits => runs_answered h ?_⟩
    · rw [served, if_neg (Classical.not_not.2 whole), if_pos past]; rfl
    · have units : (phaseUnitsOf run).length = run.length / 64 := length_piecesGo 63 _ run (Nat.le_refl _) whole
      rw [served, if_neg (Classical.not_not.2 whole), if_neg (Nat.not_lt.2 fits)]
      simp only [fillWave, State.mapWave, putUnits, units]
      rfl
  case idleEnd => exact runs_refused h (by
    simp only [serve, serveWaveEnd]
    rw [show (took ReqKind.waveEnd.stream s).openLoad = none from idle])
  case ends =>
    have served : serve .waveEnd r (took ReqKind.waveEnd.stream s) =
        if w.sum = BitVec.ofNat 32 (nat32At r.body 0) then respond r .ok [] (commitWave w (took .display s))
        else respond r .range [] (discardLoad (took .display s)) := by
      simp only [serve, serveWaveEnd]
      rw [show (took ReqKind.waveEnd.stream s).openLoad = some w from loading]
      rfl
    obtain ⟨listed, open'⟩ := openLoad_some loading
    refine ⟨fun differs => runs_answered h (served.trans (if_neg differs)), fun same => ?_⟩
    intro kept t
    have kept_eq : kept = leaveSlots (Wave.inSlot w.mode w.band) s.wav.waves := rfl
    have stays {v : Wave} (hv : v ∈ kept) (other : v.num ≠ w.num) : v ∈ t :=
      List.mem_map.2 ⟨v, hv, if_neg other⟩
    have of_t {v : Wave} (hv : v ∈ t) : v ∈ kept ∧ v.num ≠ w.num ∨ v.num = w.num ∧ v.state = .installed := by
      obtain ⟨u, hu, rfl⟩ := List.mem_map.1 hv
      split
      · rename_i num; exact .inr ⟨num, rfl⟩
      · rename_i num; exact .inl ⟨hu, num⟩
    refine ⟨runs_answered h (served.trans (if_pos same)), fun v hv load => ?_, fun v hv other stay alive => ?_,
      fun v hv other inst mode band => ⟨fun used => ?_, fun hv' => ?_⟩, ?_⟩
    · rcases of_t hv with ⟨old, other⟩ | ⟨-, installed⟩
      · obtain ⟨⟨u, hu, same⟩, -⟩ := mem_leaveSlots.1 (kept_eq ▸ old)
        split at same
        · rw [same] at load; cases load
        · exact ⟨same ▸ hu, other⟩
      · rw [load] at installed; cases installed
    · exact stays (mem_leaveSlots_of_stays hv stay fun r => absurd r alive) other
    · exact stays (retired_mem_leaveSlots hv ⟨inst, mode, band⟩ used) other
    · rcases of_t hv' with ⟨old, -⟩ | ⟨num, -⟩
      · exact not_mem_leaveSlots (p := Wave.inSlot w.mode w.band) ⟨inst, mode, band⟩ (by rw [inst]; decide) old
      · exact other num
    · refine List.mem_map.2 ⟨w, mem_leaveSlots_of_stays (p := Wave.inSlot w.mode w.band) listed (fun slot => ?_) fun r => ?_,
        if_pos rfl⟩
      · rw [slot.1] at open'; cases open'
      · rw [r] at open'; cases open'

/-- Settles O20: what leaves the slots, the checks of BANDS in order, and the end of the band walk. -/
theorem waveDropAndBands : Obligations.WaveDropAndBands := by
  refine ⟨fun s r h => ⟨fun bad => ?badDrop, fun m mode band => ?drops⟩, fun s r h => ?bands, fun t temp k inside =>
    moveBand_rests t temp k inside⟩
  case badDrop =>
    refine runs_refused h ?_
    simp only [serve, serveWaveDrop]
    split
    · rfl
    · rename_i m named
      have small : byteAt r.body 0 ≤ 3 := by
        refine Classical.byContradiction fun above => ?_
        rw [modeOf_none (by omega)] at named
        cases named
      exact if_pos (bad.resolve_left (Nat.not_lt.2 small))
  case drops =>
    refine ⟨leaveSlots (Wave.inSlot m (byteAt r.body 1)) s.wav.waves, runs_answered h ?_, fun v hv slot => ?_,
      fun v hv inst isMode isBand => ⟨fun used => retired_mem_leaveSlots hv ⟨inst, isMode, isBand⟩ used,
        fun unused => ⟨not_mem_leaveSlots (p := Wave.inSlot m (byteAt r.body 1)) ⟨inst, isMode, isBand⟩ (by rw [inst]; decide),
          retired_not_mem_leaveSlots unused⟩⟩,
      fun v hv stays alive => mem_leaveSlots_of_stays hv stays fun retired => alive.resolve_left (Classical.not_not.2 retired),
      fun v hv => ?_⟩
    · simp only [serve, serveWaveDrop]
      rw [mode, modeOf_code]
      exact if_neg (Nat.not_le.2 band)
    · exact not_mem_leaveSlots (p := Wave.inSlot m (byteAt r.body 1)) slot (by rw [slot.1]; decide) hv
    · obtain ⟨⟨w, hw, same⟩, -⟩ := mem_leaveSlots.1 hv
      split at same
      · rename_i slot; exact .inr ⟨w, hw, slot.1, same⟩
      · exact .inl (same ▸ hw)
  case bands =>
    intro n sized rising
    have refused {c : Code} (check : bandsCheck r.body = some c) : runs .bands s (refusedWith .bands r c s) :=
      runs_refused h (by simp only [serve, serveBands]; rw [check])
    refine ⟨fun bad => refused (bandsCheck_unsized bad), fun good long => refused ?_, fun good len bad => refused ?_,
      fun good len rises => ?_⟩
    · rw [bandsCheck_sized good, if_pos long]
    · rw [bandsCheck_sized good, if_neg (Classical.not_not.2 len), if_pos bad]
    · intro left t
      have check : bandsCheck r.body = none := by
        rw [bandsCheck_sized good, if_neg (Classical.not_not.2 len), if_neg (Classical.not_not.2 rises)]
      have waves : t.waves = leaveSlots (fun v => v.state = .installed ∧ n ≤ v.band)
          (s.wav.waves.filter fun v => !(v.state == .loading && decide (n ≤ v.band))) := rfl
      have keeps {v : Wave} (hv : v ∈ s.wav.waves) (alive : v.state ≠ .loading ∨ v.band < n) :
          v ∈ s.wav.waves.filter fun v => !(v.state == .loading && decide (n ≤ v.band)) :=
        List.mem_filter.2 ⟨hv, by rcases alive with h | h <;> simp [h]⟩
      refine ⟨runs_answered h (by simp only [serve, serveBands]; rw [check]; rfl), fun v hv inst out used => ?_,
        fun v hv retired used => ?_, fun v hv out => ?_, fun v hv low alive => ?_⟩
      · rw [waves]
        exact retired_mem_leaveSlots (keeps hv (.inl (by rw [inst]; decide))) ⟨inst, out⟩ used
      · rw [waves]
        exact mem_leaveSlots_of_stays (keeps hv (.inl (by rw [retired]; decide))) (fun leaves => by
          rw [retired] at leaves; exact absurd leaves.1 (by decide)) fun _ => used
      · obtain ⟨⟨w, hw, same⟩, -⟩ := mem_leaveSlots.1 (waves ▸ hv)
        split at same
        · rw [same]
        · rename_i stays
          subst same
          have notLoading := (List.mem_filter.1 hw).2
          cases state : v.state with
          | retired => rfl
          | installed => exact absurd ⟨state, out⟩ stays
          | loading => simp [state, show n ≤ v.band from out] at notLoading
      · rw [waves]
        exact mem_leaveSlots_of_stays (keeps hv (.inr low)) (fun leaves => absurd leaves.2 (Nat.not_le.2 low))
          fun r => absurd r alive

end Sys2Proof.Claims
end

section
namespace Sys2Proof.Machine

open Sys2Proof Sys2Proof.Claims

/-! ## Commands that take no request -/

/-- A command runs by its effect. -/
theorem runs_of_effect {c : Instr} {s t : State} (h : effect c s = t) : runs c s t := by
  rw [runs, exec_eq_event, event, h]

/-- An armed timer expires at its time. -/
theorem expire_armed {timer : Timer} {due : Nat} (h : timer = some due) (f : State → State) (s : State) :
    expire timer f s = f { s with now := max s.now due } := by rw [h]; rfl

/-- A stopped timer expires to no effect (log 2). -/
theorem expire_stopped {timer : Timer} (h : timer = none) (f : State → State) (s : State) : expire timer f s = s := by
  rw [h]; rfl

/-! ## The ramp (R88) -/

/-- A current differs from its target. -/
theorem differs_iff (l : FrontLight) : l.differs = true ↔ l.level ≠ l.levelTarget ∨ l.warmth ≠ l.warmthTarget := by
  simp [FrontLight.differs]

/-- A LIGHT event changes the link and the recorded events alone. -/
theorem recordLight_eq (k : Nat) (s : State) : recordLight k s =
    { s with light := { s.light with events := setEvent s.light.events k }, link := (recordLight k s).link } := by
  unfold recordLight
  rw [trigger_changes_link]

/-- Judging changes the state, the recorded events and the link alone. -/
theorem judgeLight_eq (s : State) : judgeLight s =
    { s with light := { s.light with state := s.light.judged, events := (judgeLight s).light.events },
             link := (judgeLight s).link } := by
  unfold judgeLight
  simp only
  split
  · rw [recordLight_eq]; rfl
  · split
    · rw [recordLight_eq]; rfl
    · rfl

/-- The recorded event is in the set. -/
theorem setEvent_light (events : Byte) : (setEvent events 0).getLsbD 0 = true := by
  simp [setEvent]

/-- What a change of targets does to the ramp, the state judged, and the events recorded. -/
theorem targetsChanged_armed {s : State} (stopped : s.light.ramp = none) (differs : s.light.differs = true)
    (awake : s.pow.state.awake = true) : targetsChanged s = judgeLight (s.onLight fun l => { l with ramp := s.inMs 10 }) := by
  simp [targetsChanged, stopped, differs, awake]

theorem targetsChanged_stopped {s : State} (stopped : s.light.ramp = none)
    (h : s.light.differs = false ∨ s.pow.state.awake = false) : targetsChanged s = judgeLight s := by
  rcases h with h | h <;> simp [targetsChanged, stopped, h]

theorem targetsChanged_running {s : State} (running : s.light.ramp ≠ none) (differs : s.light.differs = true) :
    targetsChanged s = judgeLight s := by
  obtain ⟨due, ramp⟩ := Option.ne_none_iff_exists'.1 running
  simp [targetsChanged, ramp, differs]

theorem targetsChanged_reached {s : State} (running : s.light.ramp ≠ none) (differs : s.light.differs = false) :
    targetsChanged s = recordLight 0 (judgeLight (s.onLight fun l => { l with ramp := none })) := by
  obtain ⟨due, ramp⟩ := Option.ne_none_iff_exists'.1 running
  simp [targetsChanged, ramp, differs]

/-- A change of targets changes the ramp timer, the state, the recorded events and the link alone. -/
theorem targetsChanged_eq (s : State) : targetsChanged s =
    { s with light := { s.light with ramp := (targetsChanged s).light.ramp, state := s.light.judged,
                                     events := (targetsChanged s).light.events },
             link := (targetsChanged s).link } := by
  unfold targetsChanged
  repeat' split
  · rw [judgeLight_eq]; rfl
  · rw [judgeLight_eq]
  · rw [judgeLight_eq]
  · rw [recordLight_eq, judgeLight_eq]; rfl

/-- A step toward a target does not pass it, and leaves the distance less the rate. -/
theorem moveToward_spec (rate cur tgt : Nat) :
    (cur ≤ tgt → cur ≤ moveToward rate cur tgt ∧ moveToward rate cur tgt ≤ tgt) ∧
      (tgt ≤ cur → tgt ≤ moveToward rate cur tgt ∧ moveToward rate cur tgt ≤ cur) ∧
      (levelGap cur tgt ≤ rate → moveToward rate cur tgt = tgt) ∧
      (rate < levelGap cur tgt → levelGap (moveToward rate cur tgt) tgt = levelGap cur tgt - rate) := by
  unfold moveToward levelGap
  split <;> refine ⟨?_, ?_, ?_, ?_⟩ <;> omega

/-! ## FOLLOW (R93 to R95) -/

/-- The checks of FOLLOW: RANGE by its fields, then STATE without a table to follow (R93). -/
theorem followCheck_legal (held : List (Nat × Nat)) {b : List Byte}
    (h : byteAt b 0 ≤ 1 ∧ (pairs16 (b.drop 1)).length ≠ 1 ∧ (∀ p ∈ pairs16 (b.drop 1), p.2 ≤ 1000) ∧
      ((pairs16 (b.drop 1)).map Prod.fst).Pairwise (· < ·)) :
    followCheck held b = if byteAt b 0 = 1 ∧ pairs16 (b.drop 1) = [] ∧ held = [] then some .state else none := by
  obtain ⟨mode, count, levels, rises⟩ := h
  unfold followCheck
  simp only
  rw [if_neg (Nat.not_lt.2 mode), if_neg]
  rintro (one | high | falls)
  · exact count one
  · obtain ⟨p, hp, above⟩ := List.any_eq_true.1 high
    exact absurd (levels p hp) (by simpa using above)
  · rw [(risingPairs_iff _).2 rises] at falls
    cases falls

/-- FOLLOW with a bad field is refused RANGE (R93). -/
theorem followCheck_range (held : List (Nat × Nat)) {b : List Byte}
    (h : ¬ (byteAt b 0 ≤ 1 ∧ (pairs16 (b.drop 1)).length ≠ 1 ∧ (∀ p ∈ pairs16 (b.drop 1), p.2 ≤ 1000) ∧
      ((pairs16 (b.drop 1)).map Prod.fst).Pairwise (· < ·))) : followCheck held b = some .range := by
  unfold followCheck
  simp only
  split
  · rfl
  · rename_i mode
    refine if_pos ?_
    refine Classical.byContradiction fun good => ?_
    simp only [not_or] at good
    obtain ⟨count, levels, rises⟩ := good
    refine h ⟨Nat.not_lt.1 mode, count, fun p hp => ?_, (risingPairs_iff _).1 (by simpa using rises)⟩
    refine Classical.byContradiction fun above => ?_
    exact levels (List.any_eq_true.2 ⟨p, hp, by simpa using above⟩)

/-- What an accepted FOLLOW does, by its mode (R93). -/
theorem putFollow_eq (b : List Byte) (s : State) : putFollow b s =
    let table := if pairs16 (b.drop 1) = [] then s.light.table else pairs16 (b.drop 1)
    if byteAt b 0 = 1 then convRequest .amb { s with light := { s.light with
      table := table, follow := true, toggledOff := false, settle := none, step := some (s.now + 500000) } }
    else { s with light := { s.light with table := table, follow := false, settle := none, step := none } } := by
  unfold putFollow
  by_cases empty : pairs16 (b.drop 1) = [] <;> simp only [empty, if_true, if_false] <;> rfl

/-- Points below a reading are passed over. -/
theorem followFrom_append {x : Nat × Nat} (before : List (Nat × Nat)) (p : Nat × Nat) (rest : List (Nat × Nat)) {lux : Nat}
    (below : ∀ y ∈ before, y.1 ≤ lux) (reached : p.1 ≤ lux) :
    followFrom x (before ++ p :: rest) lux = followFrom p rest lux := by
  induction before generalizing x with
  | nil => rw [List.nil_append, followFrom, if_neg (Nat.not_lt.2 reached)]
  | cons y before ih =>
    rw [List.cons_append, followFrom, if_neg (Nat.not_lt.2 (below y List.mem_cons_self))]
    exact ih fun z hz => below z (List.mem_cons_of_mem y hz)

/-- Above its first point the table is read from the last point not above the reading. -/
theorem followLevel_append (before : List (Nat × Nat)) (p : Nat × Nat) (rest : List (Nat × Nat)) {lux : Nat}
    (below : ∀ y ∈ before, y.1 < p.1) (reached : p.1 ≤ lux) (first : before = [] → p.1 = lux → followFrom p rest lux = p.2) :
    followLevel (before ++ p :: rest) lux = followFrom p rest lux := by
  cases before with
  | nil =>
    by_cases at' : p.1 = lux
    · rw [first rfl at']; simp [followLevel, at']
    · simp only [List.nil_append, followLevel]; exact if_neg (by omega)
  | cons x before =>
    have low := below x List.mem_cons_self
    simp only [List.cons_append, followLevel]
    rw [if_neg (by omega)]
    exact followFrom_append before p rest (fun y hy => Nat.le_trans (Nat.le_of_lt (below y (List.mem_cons_of_mem x hy))) reached) reached

/-- The settle timer armed for a follow level, unless toggled-off is set (R95). -/
def settleArmed (f : Nat) (s : State) : State :=
  if s.light.toggledOff = true then { s with light := { s.light with latest := f } }
  else { s with light := { s.light with latest := f, settle := s.inMs (s.settingNat .followSettleMs), arming := f } }

/-- A follow level while the settle timer is stopped (R95). -/
theorem settleUpdate_stopped (f : Nat) {s : State} (stopped : s.light.settle = none) : settleUpdate f s =
    if s.settingNat .followHyst < levelGap f s.light.levelTarget then settleArmed f s
    else { s with light := { s.light with latest := f } } := by
  unfold settleUpdate
  by_cases far : s.settingNat .followHyst < levelGap f s.light.levelTarget <;>
    simp [stopped, settleArmed, State.onLight, State.inMs, State.settingNat, State.setting]

/-- A follow level while the settle timer runs (R95). -/
theorem settleUpdate_running (f : Nat) {s : State} (running : s.light.settle ≠ none) : settleUpdate f s =
    if s.settingNat .followHyst < levelGap f s.light.levelTarget then
      (if s.settingNat .followHyst < levelGap f s.light.arming then settleArmed f s
       else { s with light := { s.light with latest := f } })
    else { s with light := { s.light with latest := f, settle := none } } := by
  obtain ⟨due, settle⟩ := Option.ne_none_iff_exists'.1 running
  unfold settleUpdate
  by_cases far : s.settingNat .followHyst < levelGap f s.light.levelTarget <;>
    by_cases moved : s.settingNat .followHyst < levelGap f s.light.arming <;>
    simp [settle, far, moved, settleArmed, State.onLight, State.inMs, State.settingNat, State.setting]

/-! ## The mix (R89) -/

theorem warmUa_le {s : State} (h : s.light.warmth ≤ 255) : s.warmUa ≤ s.lightEffUa := by
  have scaled : s.lightEffUa * s.light.warmth / 255 ≤ s.lightEffUa * 255 / 255 :=
    Nat.div_le_div_right (Nat.mul_le_mul_left _ h)
  rwa [Nat.mul_div_cancel _ (by decide : 0 < 255)] at scaled

end Sys2Proof.Machine

namespace Sys2Proof.Claims

open Sys2Proof Sys2Proof.Machine

/-- Settles O21: LIGHT's response, and the ramp by whether its timer runs and a current differs. -/
theorem lightRequestMovesRamp : Obligations.LightRequestMovesRamp := by
  refine ⟨fun s r h => runs_answered h rfl, fun s => ?ramps⟩
  intro t differs
  have differs_iff' : s.light.differs = true ↔ differs := differs_iff s.light
  have whole : t = _ := targetsChanged_eq s
  refine ⟨fun stopped d awake => ?_, fun stopped h => ?_, fun running d => ?_, fun running d => ?_, ?_, ?_⟩
  · simp only [t, targetsChanged_armed stopped (differs_iff'.2 d) awake, judgeLight_light]
    rfl
  · have still : s.light.differs = false ∨ s.pow.state.awake = false :=
      h.imp (fun d => Bool.eq_false_iff.2 (mt differs_iff'.1 d)) id
    simp only [t, targetsChanged_stopped stopped still, judgeLight_light, stopped]
  · simp only [t, targetsChanged_running running (differs_iff'.2 d), judgeLight_light]
  · have reached := targetsChanged_reached running (Bool.eq_false_iff.2 (mt differs_iff'.1 d))
    simp only [t, reached, recordLight_record, judgeLight_light]
    exact ⟨rfl, setEvent_light _⟩
  · exact congrArg State.light whole
  · conv => lhs; rw [whole]
    rw [congrArg State.light whole]

/-- Settles O22: the checks in order, and the light's record after an accepted FOLLOW. -/
theorem followTurnsOnAndOff : Obligations.FollowTurnsOnAndOff := by
  intro s r h pts u table legal
  have checked {c : Code} (check : followCheck s.light.table r.body = some c) : runs .follow s (refusedWith .follow r c s) :=
    runs_refused h (by
      simp only [serve, serveFollow]
      rw [show followCheck (took ReqKind.follow.stream s).light.table r.body = some c from check])
  have empty_iff : table = [] ↔ pts = [] ∧ s.light.table = [] := by
    simp only [table]; split <;> simp_all
  have accepted (check : followCheck s.light.table r.body = none) : runs .follow s (replied .follow r .ok [] (putFollow r.body u)) :=
    runs_answered h (by
      simp only [serve, serveFollow]
      rw [show followCheck (took ReqKind.follow.stream s).light.table r.body = none from check]
      rfl)
  refine ⟨fun bad => checked (followCheck_range _ bad), fun good on bare => checked ?_, fun good off => ?_,
    fun good on full => ?_⟩
  · rw [followCheck_legal _ good]
    exact if_pos ⟨on, empty_iff.1 bare⟩
  · have notOn : ¬ byteAt r.body 0 = 1 := fun on => by rw [off] at on; cases on
    have done := accepted (by rw [followCheck_legal _ good, if_neg fun on => notOn on.1])
    rw [putFollow_eq] at done
    simp only [if_neg notOn] at done
    exact done
  · have done := accepted (by rw [followCheck_legal _ good, if_neg fun bare => full (empty_iff.2 bare.2)])
    rw [putFollow_eq] at done
    simp only [if_pos on] at done
    exact done

/-- Settles O23: the step's report leaves the currents moved, and the timer by whether one differs still. -/
theorem rampStepMovesCurrents : Obligations.RampStepMovesCurrents := by
  refine ⟨⟨fun s stopped => runs_of_effect (expire_stopped stopped _ s), fun s due armed => ?steps⟩, moveToward_spec⟩
  intro moved t
  have stepped : effect .rampStep s = rampNext t := expire_armed armed rampStepNow s
  have left : t.light.level = moved.light.level ∧ t.light.warmth = moved.light.warmth ∧
      t.light.levelTarget = s.light.levelTarget ∧ t.light.warmthTarget = s.light.warmthTarget := by simp [t, moved]
  obtain ⟨level, warmth, levelTarget, warmthTarget⟩ := left
  refine ⟨⟨level, warmth, levelTarget, warmthTarget, ?_, by simp [t], by simp [t, moved], by simp [t, moved], by simp [t, moved]⟩,
    fun differs => runs_of_effect (stepped.trans ?_), fun sameLevel sameWarmth => runs_of_effect (stepped.trans ?_)⟩
  · rw [reportClaim_claim, level]
    rfl
  · have still : t.light.differs = true := by
      rw [differs_iff, level, warmth, levelTarget, warmthTarget]
      exact differs
    rw [rampNext, if_pos still, State.onLight, State.inMs, show t.now = moved.now by simp [t]]
  · have reached : ¬ t.light.differs = true := by
      rw [differs_iff, level, warmth, levelTarget, warmthTarget]
      exact fun differs => differs.elim (absurd sameLevel) (absurd sameWarmth)
    rw [rampNext, if_neg reached]
    rfl

/-- Settles O24: the bounds of the mix, and a period's start. -/
theorem pwmMixAndPeriod : Obligations.PwmMixAndPeriod := by
  refine ⟨fun s warmth => ⟨Nat.add_sub_cancel' (warmUa_le warmth), Nat.min_le_right _ _, Nat.min_le_left _ _, Nat.min_le_left _ _,
      Nat.min_le_left _ _⟩,
    fun s => ⟨fun on => ⟨runs_of_effect (if_pos on), runs_of_effect (if_pos on)⟩, fun off c => runs_of_effect ?held⟩⟩
  exact if_neg (by rw [off]; decide)

/-- Settles O25: the timers by power state, the table's reading, and the settle timer by the distances. -/
theorem followTimers : Obligations.FollowTimers := by
  refine ⟨fun s due armed => ?steps, fun s due armed => runs_of_effect (expire_armed armed followSettleNow s),
    fun s raw => ⟨fun off => if_neg off, fun on => if_pos on⟩, fun p q rest lux => ?reads, fun s f => ?settles⟩
  case steps =>
    have stepped := expire_armed armed followStepNow s
    refine ⟨fun awake => runs_of_effect (stepped.trans ?_), fun starting => runs_of_effect (stepped.trans ?_),
      fun away => runs_of_effect (stepped.trans ?_)⟩
    · rcases awake with state | state <;> simp only [followStepNow, state] <;> rfl
    · simp only [followStepNow, starting]; rfl
    · rcases away with state | state <;> simp only [followStepNow, state] <;> rfl
  case reads =>
    refine ⟨fun below => if_pos below, fun reached short before low => ?_, fun reached before low => ?_⟩
    · rw [followLevel_append before p (q :: rest) low reached ?_]
      · exact if_pos short
      · intro _ at'
        rw [followFrom, if_pos short]
        simp [at']
    · exact followLevel_append before p [] low reached fun _ _ => rfl
  case settles =>
    intro far latest armed
    refine ⟨fun stopped => ⟨fun away => ?_, fun near => ?_⟩, fun running => ⟨fun near => ?_, fun away moved => ?_,
      fun away moved => ?_⟩⟩
    · exact (settleUpdate_stopped f stopped).trans (if_pos away)
    · exact (settleUpdate_stopped f stopped).trans (if_neg near)
    · exact (settleUpdate_running f running).trans (if_neg near)
    · exact (settleUpdate_running f running).trans ((if_pos away).trans (if_pos moved))
    · exact (settleUpdate_running f running).trans ((if_pos away).trans (if_neg moved))

end Sys2Proof.Claims
end

section
namespace Sys2Proof.Machine

open Sys2Proof Sys2Proof.Claims

/-! ## Triggers -/

/-- What a trigger does to the link depends on the link alone. -/
theorem trigger_link_congr (k : NoticeKind) {s t : State} (h : t.link = s.link) : (trigger k t).link = (trigger k s).link := by
  unfold trigger State.noticeWaits mergeTrigger State.addOut
  rw [h]
  split <;> rfl

/-- A change of the supply account and a trigger commute. -/
theorem trigger_withSup (k : NoticeKind) (s : State) (sup : Supply) :
    { trigger k s with sup := sup } = trigger k { s with sup := sup } := by
  rw [trigger_changes_link, trigger_changes_link k { s with sup := sup },
    trigger_link_congr k (show ({ s with sup := sup } : State).link = s.link from rfl)]

/-! ## The decision pass (R106, R107, R110) -/

/-- A granted claim is one step of the pass. -/
theorem decisionPass_step {s u : State} {n : Nat} (passed : decisionPass s = passLoop n u)
    (bound : n = s.eng.queue.length + s.sup.waiting.length) (less : claimWork u + 1 ≤ claimWork s) :
    decisionPass s = decisionPass u := by
  have fuel := claimWork_lt s
  rw [passed, decisionPass]
  exact passLoop_fuel _ _ _ (by omega) (claimWork_lt u)

section

variable {s : State} {c : Claim} {rest : List Claim}

/-- A claim that does not fit with the light dark ends the pass. -/
theorem decisionPass_waits (oldest : s.sup.waiting = c :: rest) (above : s.sup.limit < s.others + c.amount) :
    decisionPass s = s := by
  unfold decisionPass passLoop
  simp only [oldest]
  rw [if_neg (by omega), if_neg (by omega)]

/-- A claim that fits with the light's grant is granted. -/
theorem decisionPass_fits (oldest : s.sup.waiting = c :: rest) (fits : s.others + c.amount + s.light.grant ≤ s.sup.limit) :
    decisionPass s = decisionPass (grantClaim c s) := by
  refine decisionPass_step (n := s.eng.queue.length + s.sup.waiting.length) ?_ rfl (claimWork_grantClaim c rest s oldest)
  conv => lhs; unfold decisionPass passLoop
  simp only [oldest]
  exact if_pos fits

/-- A claim that fits with less light is granted after a cut. -/
theorem decisionPass_cuts (oldest : s.sup.waiting = c :: rest) (above : s.sup.limit < s.others + c.amount + s.light.grant)
    (fits : s.others + c.amount ≤ s.sup.limit) :
    decisionPass s = decisionPass (grantClaim c (cutLight (s.sup.limit - (s.others + c.amount)) s)) := by
  have less := claimWork_grantClaim c rest _ ((cutLight_waiting (s.sup.limit - (s.others + c.amount)) s).trans oldest)
  rw [claimWork_cutLight] at less
  refine decisionPass_step (n := s.eng.queue.length + s.sup.waiting.length) ?_ rfl less
  conv => lhs; unfold decisionPass passLoop
  simp only [oldest]
  rw [if_neg (by omega)]
  exact if_pos fits

end

/-- With no claim waiting the pass is the standing want. -/
theorem decisionPass_empty {s : State} (h : s.sup.waiting = []) : decisionPass s = standingWant s := by
  unfold decisionPass passLoop
  rw [h]

/-- The light takes the grant it is given. -/
@[simp] theorem setGrant_grant (g : Nat) (s : State) : (setGrant g s).light.grant = g := by
  simp [setGrant, lightMix, State.onLight]

/-- The grant after the standing want (R107). -/
theorem standingWant_grant {s : State} (h : s.light.grant ≤ s.light.claim) :
    (standingWant s).light.grant = max s.light.grant (min s.light.claim (s.sup.limit - s.others)) := by
  unfold standingWant State.raised
  split
  · exact setGrant_grant _ s
  · omega

/-- A judging that follows a judging of the state is by what it was (R110). -/
theorem judgeCutMark_judgeLight (s : State) : judgeCutMark (judgeLight s) =
    if s.sup.cutMark = true ∧ s.light.grant = s.light.claim then
      recordBudget 1 { judgeLight s with sup := { (judgeLight s).sup with cutMark := false } }
    else judgeLight s := by
  unfold judgeCutMark
  simp

/-- Judging a light that is in CUT already. -/
theorem judgeLight_staysCut {s : State} (judged : s.light.judged = .cut) (state : s.light.state = .cut) : judgeLight s = s := by
  unfold judgeLight State.onLight
  simp [judged, state]
  rw [← state]

/-- Judging a light that enters CUT (R92). -/
theorem judgeLight_entersCut {s : State} (judged : s.light.judged = .cut) (state : s.light.state ≠ .cut) :
    judgeLight s = recordLight 1 { s with light := { s.light with state := .cut } } := by
  unfold judgeLight State.onLight
  simp [judged, state]

/-- The light with a lower grant: its record, before the state is judged. -/
def lowered (g : Nat) (s : State) : State :=
  lightMix { s with light := { s.light with grant := g }, sup := { s.sup with cutMark := true } }

/-- A cut judges the lowered light and records CUT; the cut mark stays (R106, R110). -/
theorem cutLight_lower {s : State} {g : Nat} (less : g < s.light.grant) (small : s.light.grant ≤ s.light.claim) :
    cutLight g s = recordBudget 0 (judgeLight (lowered g s)) := by
  have differs : ¬ ((lowered g s).sup.cutMark = true ∧ (lowered g s).light.grant = (lowered g s).light.claim) := by
    rintro ⟨-, same⟩
    have same : g = s.light.claim := same
    omega
  unfold cutLight
  rw [if_pos less]
  unfold setGrant
  rw [judgeCutMark_judgeLight]
  exact congrArg (recordBudget 0) (if_neg differs)

end Sys2Proof.Machine

namespace Sys2Proof.Claims

open Sys2Proof Sys2Proof.Machine

/-- Settles O26: a step of the pass by how its oldest claim fits, the standing want, a cut, and the light's report. -/
theorem decisionPassOrder : Obligations.DecisionPassOrder := by
  refine ⟨fun s c rest oldest => ⟨fun above => decisionPass_waits oldest above, ?starts⟩, fun s idle small => ?stands,
    ⟨fun s c rest oldest => ?grants, fun s g small => ?cuts⟩, fun s => ?reports⟩
  case starts =>
    rintro who rfl free fits lit
    have granted : grantClaim c s = { s with
        sup := { s.sup with waiting := [] },
        store := { s.store with flash := .running, grant := some c.amount, page := 0, cut := false, suspends := 0,
                                ran := 0, since := s.now } } := by
      simp only [grantClaim, who, startOp, dropOldest, oldest, List.tail_cons]
    rw [decisionPass_fits oldest fits, granted]
    exact decisionPass_idle _ rfl lit
  case stands =>
    have passed := decisionPass_empty idle
    rw [passed]
    have grant := standingWant_grant small
    refine ⟨grant, by rw [grant]; omega, fun within => ?_, by simp, by simp, by simp, by simp, by simp [sameBut]⟩
    have others : (standingWant s).others = s.others := by simp [State.others]
    rw [State.total, others, grant]
    rw [State.total] at within
    omega
  case grants =>
    have left (u : State) (same : u.sup.waiting = c :: rest) : dropOldest u = { u with sup := { u.sup with waiting := rest } } := by
      simp only [dropOldest, same, List.tail_cons]
    intro granted
    have granted_eq (u : State) (same : u.sup.waiting = c :: rest) : grantClaim c u = granted u := by
      simp only [grantClaim, left u same, granted]
      cases c.who <;> rfl
    refine ⟨fun fits => ?_, fun above fits => ?_⟩
    · rw [decisionPass_fits oldest fits, granted_eq s oldest]
    · rw [decisionPass_cuts oldest above fits, granted_eq _ ((cutLight_waiting _ s).trans oldest)]
  case cuts =>
    intro held
    refine ⟨fun unchanged => if_neg (Nat.not_lt.2 unchanged), fun less => ?_⟩
    intro cut
    have judged : (lowered g s).light.judged = .cut := if_pos (Nat.lt_of_lt_of_le less small)
    refine ⟨fun already => ?_, fun enters => ?_⟩
    · have stays : judgeLight (lowered g s) = lowered g s := judgeLight_staysCut judged already
      rw [cutLight_lower less small, stays]
      have mixed : lowered g s = { lowered g s with light := { (lowered g s).light with state := .cut } } := by
        rw [show LightState.cut = (lowered g s).light.state from already.symm]
      rw [mixed]
      rfl
    · rw [cutLight_lower less small, judgeLight_entersCut judged enters]
      unfold recordBudget recordLight
      rw [trigger_withSup]
      simp only [trigger_frame]
      rfl
  case reports =>
    intro c event taken
    have taken_eq (g : Nat) : setGrant g (s.onLight fun l => { l with claim := c }) = taken g s := by
      unfold setGrant
      rw [judgeCutMark_judgeLight]
      rfl
    have same : judgeCutMark (judgeLight (lightMix (s.onLight fun l => { l with claim := c }))) = taken s.light.grant s :=
      taken_eq s.light.grant
    refine ⟨fun unchanged => ?_, fun changed less => ?_, fun changed more => ⟨fun waits => ?_, fun idle => ?_⟩⟩
    all_goals unfold reportClaim; simp only
    · by_cases old : c = s.light.claim
      · exact (if_pos old).trans same
      · have grant := unchanged.resolve_left old
        rw [if_neg old, if_neg (by omega), if_neg (by omega)]
        exact taken_eq _
    · rw [if_neg changed, if_pos less, taken_eq]
    · rw [if_neg changed, if_neg (by omega), if_neg fun h => waits h.2, taken_eq]
    · rw [if_neg changed, if_neg (by omega), if_pos ⟨more, idle⟩, taken_eq]
      rfl

end Sys2Proof.Claims
end

section
namespace Sys2Proof.Machine

open Sys2Proof Sys2Proof.Claims

/-! ## The supply limit (R103, R109) -/

/-- The limit table is read as the follow table is: both interpolate between two points. -/
theorem limitFrom_eq (p : Nat × Nat) (rest : List (Nat × Nat)) (v : Nat) : limitFrom p rest v = followFrom p rest v := by
  induction rest generalizing p with
  | nil => rfl
  | cons q rest ih => rw [limitFrom, followFrom, ih]

theorem limitFor_eq (table : List (Nat × Nat)) (v : Nat) : limitFor table v = followLevel table v := by
  cases table with
  | nil => rfl
  | cons p rest => simp only [limitFor, followLevel, limitFrom_eq]

/-- The engine's claim that a new limit ends (R109). -/
theorem engineMisfit_eq_some {s : State} {e : QEntry} {p : Pick} (claiming : s.claimingEntry = some e)
    (picked : e.pick = some p) (above : s.sup.limit < p.tilePart + s.settingNat .panelBaseMa) : engineMisfit s = some (e, p) := by
  simp [engineMisfit, claiming, picked, above]

theorem engineMisfit_eq_none {s : State} (h : ∀ e p, ¬ (s.claimingEntry = some e ∧ e.pick = some p ∧
    s.sup.limit < p.tilePart + s.settingNat .panelBaseMa)) : engineMisfit s = none := by
  unfold engineMisfit
  split
  · rfl
  · rename_i e claiming
    split
    · rfl
    · rename_i p picked
      exact if_neg fun above => h e p ⟨claiming, picked, above⟩

/-- The store's claim that a new limit ends (R109). -/
theorem storeMisfit_eq_some {s : State} {o : Op} (flash : s.store.flash = .claiming) (op : s.store.op = some o)
    (above : ∃ c, s.sup.waiting.find? (fun c => c.who == .store) = some c ∧ s.sup.limit < c.amount) :
    storeMisfit s = some o := by
  obtain ⟨c, claim, amount⟩ := above
  simp [storeMisfit, flash, claim, amount, op]

theorem storeMisfit_eq_none {s : State} (h : ∀ o, ¬ (s.store.flash = .claiming ∧ s.store.op = some o ∧
    ∃ c, s.sup.waiting.find? (fun c => c.who == .store) = some c ∧ s.sup.limit < c.amount)) : storeMisfit s = none := by
  unfold storeMisfit
  repeat' split
  · rename_i flash _ c claim above
    rw [Option.eq_none_iff_forall_ne_some]
    exact fun o op => h o ⟨flash, op, c, claim, above⟩
  all_goals rfl

/-- A withdrawn claim of the engine is none of the store's. -/
theorem storeMisfit_judgeEngineClaim (s : State) : storeMisfit (judgeEngineClaim s) = storeMisfit s := by
  unfold judgeEngineClaim
  split
  · rfl
  · rename_i e p misfit
    have waiting : (s.sup.waiting.filter fun c => c.who != .engine).find? (fun c => c.who == .store) =
        s.sup.waiting.find? fun c => c.who == .store := by
      rw [List.find?_filter]
      congr 1
      funext c
      cases c.who <;> rfl
    have sup : (withdrawEngine e s).sup = s.sup ∨
        (withdrawEngine e s).sup = { s.sup with waiting := s.sup.waiting.filter fun c => c.who != .engine } := by
      unfold withdrawEngine
      split
      · exact .inl rfl
      · exact .inr rfl
    unfold storeMisfit
    rcases sup with sup | sup <;> simp [sup, waiting]

/-- A new limit with its two judgements known (R109). -/
theorem newLimit_eq {s u : State} {limit : Nat} {engine : Option (QEntry × Pick)} {store : Option Op}
    (engineJudged : engineMisfit { s with sup := { s.sup with limit := limit } } = engine)
    (storeJudged : storeMisfit { s with sup := { s.sup with limit := limit } } = store)
    (judged : judgeStoreClaim (judgeEngineClaim { s with sup := { s.sup with limit := limit } }) = u) :
    newLimit limit s =
      let passed := decisionPass (cutToLimit u)
      let looked := if engine.isSome = true then lookPass passed else passed
      unpause s.fetch.paused (if store.isSome = true then selectPoint looked else looked) := by
  unfold newLimit
  simp only [engineJudged, storeJudged, judged]

/-- What the engine's judgement leaves of the limit. -/
theorem judgeEngineClaim_limit (s : State) : (judgeEngineClaim s).sup.limit = s.sup.limit := by
  unfold judgeEngineClaim
  split
  · rfl
  · rename_i e p _
    rw [(endEntry_frame e .lowSupply p.mode p.promoted (withdrawEngine e s)).2.2.2.2.2.2.2.2.2.2.2.2.2.2.1]
    unfold withdrawEngine
    split <;> rfl

/-! ## The converter (R31) -/

/-- The converter chooses nothing unless it is powered, idle and asked. -/
theorem convKick_rests {s : State} (h : s.conv.powered = false ∨ s.conv.busy ≠ none ∨ ∀ c, s.conv.flag c = false) :
    convKick s = s := by
  unfold convKick
  split
  · rename_i ready
    obtain ⟨powered, idle⟩ := ready
    have bare : ∀ c, s.conv.flag c = false :=
      (h.resolve_left (by rw [powered]; decide)).resolve_left (Classical.not_not.2 idle)
    have first : (chansAfter s.conv.last).find? s.conv.flag = none := List.find?_eq_none.2 fun c _ => by rw [bare c]; decide
    rw [first]
  · rfl

/-- The converter begins the first requested channel. -/
theorem convKick_begins {s : State} {before behind : List Chan} {c : Chan} (powered : s.conv.powered = true)
    (idle : s.conv.busy = none) (order : chansAfter s.conv.last = before ++ c :: behind) (wanted : s.conv.flag c = true)
    (first : ∀ d ∈ before, s.conv.flag d = false) :
    convKick s = { s with conv := { s.conv.setFlag c false with busy := some (c, s.now + 200) } } := by
  have found : (chansAfter s.conv.last).find? s.conv.flag = some c := by
    rw [order, List.find?_append, List.find?_eq_none.2 fun d hd => by rw [first d hd]; decide, Option.none_or,
      List.find?_cons_of_pos wanted]
  unfold convKick
  rw [if_pos ⟨powered, idle⟩, found]

/-- Whether a channel is being converted. -/
theorem converting_iff (s : State) (c : Chan) : s.converting c = true ↔ ∃ due, s.conv.busy = some (c, due) := by
  unfold State.converting
  cases s.conv.busy with
  | none => simp
  | some b => simp [Prod.ext_iff]

/-- TEMP is asked for once. -/
theorem tempRequest_asked {s : State} (h : s.conv.temp = true ∨ ∃ due, s.conv.busy = some (.temp, due)) : tempRequest s = s := by
  unfold tempRequest
  rw [← converting_iff s .temp, ← Bool.or_eq_true] at h
  rw [if_pos h]

theorem tempRequest_asks {s : State} (flag : s.conv.temp = false) (idle : ∀ due, s.conv.busy ≠ some (.temp, due)) :
    tempRequest s = convRequest .temp s := by
  have free : s.converting .temp = false := Bool.eq_false_iff.2 fun busy => by
    obtain ⟨due, h⟩ := (converting_iff s .temp).1 busy
    exact idle due h
  unfold tempRequest
  rw [flag, free]
  rfl

/-- A conversion's end (R31). -/
theorem conversionNow_busy {s : State} {c : Chan} {due : Nat} (busy : s.conv.busy = some (c, due)) (raw : Nat) :
    conversionNow raw s = convKick (channelEnds c raw
      { s with now := max s.now due, conv := { s.conv with busy := none, last := c } }) := by
  unfold conversionNow
  rw [busy]
  rfl

/-! ## A temperature reading (R27 to R30) -/

/-- A trigger that some condition makes changes a link as it changes an equal one. -/
theorem ite_trigger_link (k : NoticeKind) (b : Bool) {s t : State} (h : t.link = s.link) :
    (if b = true then trigger k t else t).link = (if b = true then trigger k s else s).link := by
  cases b
  · exact h
  · exact trigger_link_congr k h

/-- A TEMP event changes the recorded events and the link alone. -/
theorem recordTemp_eq (k : Nat) {s u : State} (same : u.link = s.link) : recordTemp k u =
    { u with wav := { u.wav with events := setEvent u.wav.events k }, link := (trigger .temp s).link } := by
  unfold recordTemp
  rw [trigger_changes_link, trigger_link_congr .temp (s := s) (t := { u with
    wav := { u.wav with events := setEvent u.wav.events k } }) same]

/-- The band after a reading, and its event. -/
theorem applyBand_eq (temp : Int) (s : State) : applyBand temp s =
    let band := some (bandAfter s.wav.table s.wav.band temp)
    { s with
      wav := { s.wav with band := band,
                          events := s.wav.events ||| (if (s.wav.band != band) = true then 1 else 0) },
      link := (if (s.wav.band != band) = true then trigger .temp s else s).link } := by
  simp only [applyBand]
  by_cases same : s.wav.band = some (bandAfter s.wav.table s.wav.band temp)
  · simp [← same]
  · rw [if_neg same, recordTemp_eq 0 (s := s) (u := { s with wav := { s.wav with
      band := some (bandAfter s.wav.table s.wav.band temp) } }) rfl]
    simp [same, setEvent]

/-- The range flag after a reading, and its event. -/
theorem applyRange_eq (temp : Int) (s : State) : applyRange temp s =
    let out := decide (temp < s.setting .tempLowDd) || decide (s.setting .tempHighDd < temp)
    { s with
      wav := { s.wav with outOfRange := out,
                          events := s.wav.events ||| (if (s.wav.outOfRange != out) = true then (if out = true then 2 else 4) else 0) },
      link := (if (s.wav.outOfRange != out) = true then trigger .temp s else s).link } := by
  simp only [applyRange]
  generalize (decide (temp < s.setting .tempLowDd) || decide (s.setting .tempHighDd < temp)) = out
  by_cases same : s.wav.outOfRange = out
  · simp [same]
  · simp only [if_neg same, recordTemp_eq _ (s := s) (u := { s with wav := { s.wav with outOfRange := out } }) rfl]
    cases out <;> simp [same, setEvent]

end Sys2Proof.Machine

namespace Sys2Proof.Claims

open Sys2Proof Sys2Proof.Machine

/-- Settles O28: the filter and the voltage, and the mark by its two thresholds. -/
theorem sampleFiltersAndMarks : Obligations.SampleFiltersAndMarks := by
  intro s raw f mv low sampled
  have taken (fired : Bool) (h : lowAfter s.sup.lowFired low mv = fired) :
      ({ s with sup := takeSample raw (s.settingNat .lowMarkMv) s.sup } : State) = sampled fired := by
    rw [← h]; rfl
  have sampled_eq (fired : Bool) (h : lowAfter s.sup.lowFired low mv = fired) : battSample raw s =
      newLimit (limitFor s.sup.limitTable mv)
        (if s.sup.lowFired = false ∧ fired = true then recordPower 5 (sampled fired) else sampled fired) := by
    unfold battSample
    simp only [taken fired h]
    rw [show (takeSample raw (s.settingNat .lowMarkMv) s.sup).lowFired = fired from h]
    rfl
  refine ⟨fun clear below => ?_, fun clear above => ?_, fun fired below => ?_, fun fired above => ?_⟩
  · rw [sampled_eq true (by simp [lowAfter, clear, below]), if_pos ⟨clear, rfl⟩]
  · rw [sampled_eq false (by simp [lowAfter, clear, above]), if_neg (by simp)]
  · rw [sampled_eq true (by simp [lowAfter, fired, below]), if_neg (by simp [fired])]
  · rw [sampled_eq false (by simp [lowAfter, fired, above]), if_neg (by simp)]

/-- Settles O27: the table as the follow table, LIMITS, and a new limit by which claims it ends. -/
theorem supplyLimitTable : Obligations.SupplyLimitTable := by
  refine ⟨fun p q rest v => ?reads, fun s r h => ?limits, fun s limit => ?changes⟩
  case reads =>
    simp only [limitFor_eq]
    refine ⟨fun below => if_pos below, fun reached short before low => ?_, fun reached before low =>
      followLevel_append before p [] low reached fun _ _ => rfl⟩
    rw [followLevel_append before p (q :: rest) low (Nat.le_of_lt reached) fun _ same => absurd same (by omega)]
    exact if_pos short
  case limits =>
    intro pts u legal
    have legal_iff : limitsOk pts = true ↔ legal := limitsOk_iff pts
    have served : serve .limits r (took ReqKind.limits.stream s) = if limitsOk pts = true then
        respond r .ok [] (putLimits pts (took .control s)) else respond r .range [] (took .control s) := by
      simp only [serve, serveLimits]
      rfl
    refine ⟨fun bad => runs_refused h ?_, fun good bare => runs_answered h ?_, fun v good held => runs_answered h ?_⟩
    · rw [served, if_neg (mt legal_iff.1 bad)]; rfl
    · rw [served, if_pos (legal_iff.2 good), putLimits, show (took .control s).sup.volts = none from bare]; rfl
    · rw [served, if_pos (legal_iff.2 good), putLimits, show (took .control s).sup.volts = some v from held]; rfl
  case changes =>
    intro s0 cut resumed unclaimed withdrawn ended told engineEnds storeEnds
    have resumed_eq (u : State) : unpause s.fetch.paused u = resumed u := rfl
    have cut_eq (u : State) (same : u.sup.limit = limit) : cutToLimit u = cut u := by rw [cutToLimit, same]
    have engine_none (h : ∀ e p, ¬ engineEnds e p) : engineMisfit s0 = none := engineMisfit_eq_none h
    have store_none (h : ∀ o, ¬ storeEnds o) : storeMisfit s0 = none := storeMisfit_eq_none h
    have engine_some {e p} (h : engineEnds e p) : engineMisfit s0 = some (e, p) :=
      let ⟨claiming, picked, above⟩ := h; engineMisfit_eq_some claiming picked above
    have store_some {o} (h : storeEnds o) : storeMisfit s0 = some o :=
      let ⟨flash, op, above⟩ := h; storeMisfit_eq_some flash op above
    have withdrawn_eq {e p} (h : engineEnds e p) : judgeEngineClaim s0 = withdrawn e p := by
      rw [judgeEngineClaim, engine_some h]
      simp only [withdrawEngine, h.2.1]
      rfl
    have stays (h : ∀ e p, ¬ engineEnds e p) : judgeEngineClaim s0 = s0 := by rw [judgeEngineClaim, engine_none h]
    have withdrawn_frame (e p) : (withdrawn e p).store = s.store ∧ (withdrawn e p).sup.limit = limit := by simp [withdrawn, s0]
    have ended_eq {o} (h : storeEnds o) : judgeStoreClaim (judgeEngineClaim s0) = told o (ended (judgeEngineClaim s0)) := by
      have store : (judgeEngineClaim s0).store = s.store := by
        simp only [judgeEngineClaim]
        split <;> simp [s0]
      rw [judgeStoreClaim, storeMisfit_judgeEngineClaim, store_some h]
      simp only [deliver, ended, told, State.onStore, dropClaims, store]
      cases o.source <;> rfl
    have told_limit (o : Op) (u : State) (same : u.sup.limit = limit) : (told o (ended u)).sup.limit = limit := by
      simp only [told]
      cases o.source <;> simp [ended, same]
    have unended (h : ∀ o, ¬ storeEnds o) : judgeStoreClaim (judgeEngineClaim s0) = judgeEngineClaim s0 := by
      rw [judgeStoreClaim, storeMisfit_judgeEngineClaim, store_none h]
    refine ⟨fun engine store => ?_, fun e p engine store => ?_, fun o engine store => ?_, fun e p o engine store => ?_⟩
    · rw [newLimit_eq (engine_none engine) (store_none store) ((unended store).trans (stays engine)), cut_eq s0 rfl]
      simp only [Option.isSome_none, Bool.false_eq_true, if_false, resumed_eq]
    · rw [newLimit_eq (engine_some engine) (store_none store) ((unended store).trans (withdrawn_eq engine)),
        cut_eq _ (withdrawn_frame e p).2]
      simp only [Option.isSome_some, Option.isSome_none, Bool.false_eq_true, if_true, if_false, resumed_eq]
    · rw [newLimit_eq (engine_none engine) (store_some store) (ended_eq store), stays engine, cut_eq _ (told_limit o s0 rfl)]
      simp only [Option.isSome_some, Option.isSome_none, Bool.false_eq_true, if_true, if_false, resumed_eq]
    · rw [newLimit_eq (engine_some engine) (store_some store) (ended_eq store), withdrawn_eq engine,
        cut_eq _ (told_limit o _ (withdrawn_frame e p).2)]
      simp only [Option.isSome_some, if_true, resumed_eq]

/-- Settles O29: the converter's choice, the requests, the owners' values, and a good temperature. -/
theorem converterServesOwners : Obligations.ConverterServesOwners := by
  refine ⟨⟨fun s due armed => runs_of_effect (expire_armed armed sampleNow s), fun s due armed => ?interval⟩,
    fun s raw due c busy => ?ends, fun s => ?chooses, fun s => ?asks, fun s raw low high => ?reads⟩
  case interval =>
    have expired := expire_armed armed tempIntervalNow s
    exact ⟨fun asked => runs_of_effect (expired.trans (tempRequest_asked asked)), fun flag idle =>
      runs_of_effect (expired.trans (tempRequest_asks flag idle))⟩
  case ends =>
    have ended := conversionNow_busy busy raw
    refine ⟨?_, ?_, ?_, ?_, ?_⟩
    · rintro rfl
      exact runs_of_effect ended
    · rintro rfl awake
      refine ⟨_, runs_of_effect (ended.trans ?_), rfl⟩
      simp only [channelEnds, battEnds, if_neg awake, State.inSec, battSample_frame, Nat.mul_one]
    · rintro rfl starting unread
      refine runs_of_effect (ended.trans ?_)
      simp [channelEnds, battEnds, starting, unread]
    · rintro rfl low high
      refine runs_of_effect (ended.trans ?_)
      simp [channelEnds, tempEnds, goodTemp, low, high]
    · rintro rfl faulty
      have bad : goodTemp raw = false := by
        rw [goodTemp, Bool.and_eq_false_iff, decide_eq_false_iff_not, decide_eq_false_iff_not]
        omega
      refine runs_of_effect (ended.trans ?_)
      simp only [channelEnds, tempEnds, bad, tempReading, if_pos faulty]
      rfl
  case chooses =>
    intro wants order
    have wants_iff (c : Chan) : s.conv.flag c = true ↔ wants c := by cases c <;> rfl
    have quiet_iff (c : Chan) : s.conv.flag c = false ↔ ¬ wants c := by rw [← wants_iff, Bool.not_eq_true]
    have order_eq : chansAfter s.conv.last = order := by simp only [order]; cases s.conv.last <;> rfl
    refine ⟨fun h => convKick_rests (h.imp_right (Or.imp_right fun quiet c => (quiet_iff c).2 (quiet c))),
      fun before c behind powered idle first wanted quiet => ?_⟩
    rw [convKick_begins powered idle (order_eq.trans first) ((wants_iff c).2 wanted) fun d hd => (quiet_iff d).2 (quiet d hd)]
    cases c <;> simp [Converter.setFlag]
  case asks =>
    refine ⟨fun c => ?_, tempRequest_asked, fun flag idle => tempRequest_asks flag idle, fun fault => ?_, fun good => ?_⟩
    · refine congrArg convKick ?_
      have flags : s.conv.setFlag c true = { s.conv with
          temp := s.conv.temp || c == .temp, batt := s.conv.batt || c == .batt, amb := s.conv.amb || c == .amb } := by
        obtain ⟨temp, batt, amb⟩ := s.conv
        cases c <;> simp [Converter.setFlag] <;> decide
      rw [flags]
    · simp [tempDemand, fault]
    · simp [tempDemand, good]
  case reads =>
    intro t table band out moved turned once twice
    have good : ¬ (raw = 0 ∨ 4095 ≤ raw) := by omega
    let read : State := { s with wav := { s.wav with
      reading := some (t, s.now), fault := false, interval := s.inSec (s.settingNat .tempIntervalS) } }
    let after := if moved = true then trigger .temp s else s
    let banded : State := { read with
      wav := { read.wav with band := some band, events := s.wav.events ||| (if moved = true then 1 else 0) },
      link := after.link }
    have first : applyBand t read = banded := by
      rw [applyBand_eq]
      exact congrArg (fun link => ({ banded with link := link } : State)) (ite_trigger_link .temp moved (s := s) (t := read) rfl)
    have second : applyRange t banded = { banded with
        wav := { banded.wav with outOfRange := out, events := banded.wav.events |||
          (if turned = true then (if out = true then 2 else 4) else 0) },
        link := twice.link } := by
      have links : (if turned = true then trigger .temp after else after).link = twice.link := by
        simp only [after, twice, once]
        cases moved <;> cases turned <;> rfl
      rw [applyRange_eq, ← links]
      exact congrArg (fun link => ({ banded with
        wav := { banded.wav with outOfRange := out, events := banded.wav.events |||
          (if turned = true then (if out = true then 2 else 4) else 0) },
        link := link } : State)) (ite_trigger_link .temp turned (s := after) (t := banded) rfl)
    have reading : tempReading raw s = applyRange t (applyBand t read) := by
      simp only [tempReading, if_neg good]
      rfl
    rw [reading, first, second]
    rfl

end Sys2Proof.Claims
end

section
namespace Sys2Proof.Machine

open Sys2Proof Sys2Proof.Claims

/-! ## The frame boundary (R45) -/

/-- The lanes that pass a test, by their numbers in the table. -/
theorem lanesWhere_eq_filterMap (p : Lane → Bool) (first : Nat) (ls : List (Option Lane)) :
    lanesWhere p first ls = (List.range ls.length).filterMap fun i => match ls[i]? with
      | some (some l) => if p l = true then some (first + i, l) else none
      | _ => none := by
  induction ls generalizing first with
  | nil => rfl
  | cons x ls ih =>
    have next : lanesWhere p (first + 1) ls = ((List.range ls.length).map Nat.succ).filterMap fun i => match (x :: ls)[i]? with
        | some (some l) => if p l = true then some (first + i, l) else none
        | _ => none := by
      rw [ih, List.filterMap_map]
      congr 1
      funext i
      simp only [Function.comp, List.getElem?_cons_succ, Nat.add_right_comm first 1 i, Nat.succ_eq_add_one, Nat.add_assoc]
    rw [List.length_cons, List.range_succ_eq_map, List.filterMap_cons]
    cases x with
    | none => exact next
    | some l => by_cases h : p l = true <;> simp [lanesWhere, h, next]

/-- A lane stands among the lanes that drive. -/
theorem drives_eq_true_iff (s : State) : s.drives = true ↔ ∃ l ∈ s.eng.lanes, l ≠ none := by
  simp [State.drives, Option.isSome_iff_ne_none]

/-- With a lane left the frame opens (R45 step 4). -/
theorem joinAndOpen_opens {s : State} (h : ∃ l ∈ s.eng.lanes.map fun l => l.map Lane.join, l ≠ none) :
    joinAndOpen s = openFrame { s with eng := { s.eng with lanes := s.eng.lanes.map fun l => l.map Lane.join } } := by
  unfold joinAndOpen
  exact if_pos ((drives_eq_true_iff _).2 h)

/-- With none left the supply stops (R48). -/
theorem joinAndOpen_stops {s : State} (h : ∀ l ∈ s.eng.lanes.map fun l => l.map Lane.join, l = none) :
    joinAndOpen s = stopSupply { s with eng := { s.eng with lanes := s.eng.lanes.map fun l => l.map Lane.join } } := by
  unfold joinAndOpen
  refine if_neg fun drives => ?_
  obtain ⟨l, hl, occupied⟩ := (drives_eq_true_iff _).1 drives
  exact occupied (h l hl)

/-- A waiting claim that includes the base, or none, is not raised (R41). -/
theorem raiseWaiting_includes {s : State} (h : ∀ e p, s.claimingEntry = some e → e.pick = some p → p.base ≠ none) :
    raiseWaiting s = s := by
  unfold raiseWaiting
  split
  · rfl
  · rename_i e claiming
    split
    · rename_i picked
      exact absurd rfl (h e _ claiming picked)
    · rfl

/-- A waiting claim without the base is raised by it (R41). -/
theorem raiseWaiting_raises {s : State} {e : QEntry} {p : Pick} (claiming : s.claimingEntry = some e)
    (picked : e.pick = some p) (bare : p.base = none) : raiseWaiting s = { s with
      eng := { s.eng with queue := s.eng.queue.map (raisePick (s.settingNat .panelBaseMa)) },
      sup := { s.sup with waiting := s.sup.waiting.map (raiseClaim (s.settingNat .panelBaseMa)) } } := by
  obtain ⟨mode, promoted, region, wave, part, base⟩ := p
  subst bare
  unfold raiseWaiting
  simp only [claiming, picked]

/-- The base noted in a pick. -/
theorem raisePick_eq (base : Nat) (e : QEntry) :
    raisePick base e = { e with pick := e.pick.map fun p => { p with base := some base } } := by
  unfold raisePick
  split <;> rename_i picked
  · simp [picked]
  · rw [picked, Option.map_none, ← picked]

/-! ## The end and the stop of a lane (R47, R50) -/

/-- The state after a lane's release, which leaves its table but for the lane's own place. -/
theorem releaseLane_eq (i : Nat) (l : Lane) (status : Status) (s : State) : releaseLane i l status s =
    let left := leaveWave l.wave (landingPass s)
    let told := if l.dropped = true then left else appendCompletion (l.record status) left
    { told with eng := { told.eng with lanes := s.eng.lanes.set i none } } := by
  unfold releaseLane
  by_cases dropped : l.dropped = true <;> simp [dropped, appendCompletion_eng]

/-! ## The landing pass (R13) -/

/-- A packet meets an owned tile or an older held packet, by the tiles' numbers. -/
theorem mustHold_iff_tiles (s : State) (kept : List HeldPacket) (p : HeldPacket) : s.mustHold kept p = true ↔
    (∃ k t, s.img.tiles[k]? = some t ∧ p.tiles.holds k = true ∧ t.owner ≠ none) ∨ 
      ∃ q ∈ kept, q.tiles.meets p.tiles = true := by
  simp [State.mustHold, State.owned, anyTile_iff, Option.isSome_iff_ne_none]

/-- A landing pass keeps packets of the list in their order, and the stalled packet. -/
theorem landWalk_held (kept ps : List HeldPacket) (s : State) :
    (∃ rest, rest.Sublist ps ∧ (landWalk kept ps s).img.held = kept ++ rest) ∧ (landWalk kept ps s).img.stall = s.img.stall := by
  induction ps generalizing kept s with
  | nil => exact ⟨⟨[], List.Sublist.slnil, (List.append_nil kept).symm⟩, rfl⟩
  | cons p ps ih =>
    unfold landWalk
    split
    · obtain ⟨⟨rest, sub, held⟩, stall⟩ := ih (kept ++ [p]) s
      exact ⟨⟨p :: rest, sub.cons_cons p, by rw [held, List.append_assoc, List.singleton_append]⟩, stall⟩
    · obtain ⟨⟨rest, sub, held⟩, stall⟩ := ih kept (landPacket p s)
      exact ⟨⟨rest, sub.cons p, held⟩, stall⟩

/-- With nothing held or stalled a landing pass changes nothing. -/
theorem landingPass_empty {s : State} (held : s.img.held = []) (stall : s.img.stall = none) : landingPass s = s := by
  have walked : landWalk [] s.img.held s = s := by rw [held]; simp only [landWalk]; rw [← held]
  unfold landingPass
  simp only [walked, stall]

/-- The image store after the end of a lane with nothing held or stalled. -/
theorem releaseLane_img {s : State} (held : s.img.held = []) (stall : s.img.stall = none) (i : Nat) (l : Lane) (status : Status) :
    (releaseLane i l status s).img = s.img := by
  rw [releaseLane_eq, landingPass_empty held stall]
  by_cases dropped : l.dropped = true <;> simp [dropped]

/-- The tile table after the end or stop of a lane, tile by tile. -/
theorem tilesEnded_getElem? (l : Lane) (tiles : List Tile) (k : Nat) : (tilesEnded l tiles)[k]? = tiles[k]?.map fun t =>
    if l.tiles.holds k = true then tileEnded l.mode (l.region.wholeTile k) t else t := by
  rw [tilesEnded, mapTiles_getElem?, Nat.zero_add]

theorem tilesStopped_getElem? (l : Lane) (tiles : List Tile) (k : Nat) : (tilesStopped l tiles)[k]? = tiles[k]?.map fun t =>
    if l.tiles.holds k = true then tileStopped (decide (0 < l.phase)) t else t := by
  rw [tilesStopped, mapTiles_getElem?, Nat.zero_add]

/-! ## The last lane (R48) -/

/-- The only occupied lane of the table, if it passes a test. -/
theorem lanesWhere_only (p : Lane → Bool) {pre post : List (Option Lane)} (l : Lane) (free : ∀ x ∈ pre ++ post, x = none) :
    lanesWhere p 0 (pre ++ some l :: post) = if p l = true then [(pre.length, l)] else [] := by
  rw [lanesWhere_append p 0 pre fun x hx => free x (List.mem_append_left post hx), Nat.zero_add, lanesWhere,
    lanesWhere_free p _ post fun x hx => free x (List.mem_append_right pre hx)]

/-- A boundary that leaves no lane, no claim and no entry stops the supply and does nothing more. -/
theorem boundaryNow_last {s g : State} {i : Nat} {l : Lane} (gone : endAndStop s = g)
    (went : lanesWhere Lane.finishes 0 s.eng.lanes ++ lanesWhere Lane.stops 0 s.eng.lanes = [(i, l)])
    (free : ∀ x ∈ g.eng.lanes, x = none) (queue : g.eng.queue = []) (waiting : g.sup.waiting = [])
    (lit : g.light.claim ≤ g.light.grant) (kept : l.dropped = false) :
    boundaryNow s = { g with eng := { g.eng with supply := .off, boundary := none, base := none } } := by
  have joined : (g.eng.lanes.map fun l => l.map Lane.join) = g.eng.lanes :=
    (List.map_congr_left fun x hx => by rw [free x hx]; rfl).trans (List.map_id _)
  have stopped : joinAndOpen g = { g with eng := { g.eng with supply := .off, boundary := none, base := none } } := by
    rw [joinAndOpen_stops (by rw [joined]; exact free), joined]
    exact raiseWaiting_includes fun e p claiming => by
      rw [State.claimingEntry, show ({ g with eng := { g.eng with supply := .off, boundary := none, base := none } } : State).eng.queue =
        [] from queue] at claiming
      cases claiming
  unfold boundaryNow
  simp only [gone, went, stopped, List.foldl_cons, List.foldl_nil, afterLane, kept, Bool.false_eq_true, if_false]
  rw [decisionPass_idle { g with eng := { g.eng with supply := .off, boundary := none, base := none } } waiting lit]
  exact lookPass_empty _ queue

/-- A frame at which no lane goes makes no pass and no look. -/
theorem boundaryNow_none {s : State} (h : ∀ l, some l ∈ s.eng.lanes → l.finishes = false ∧ l.stops = false) :
    boundaryNow s = joinAndOpen s := by
  have none_pass (p : Lane → Bool) (quiet : ∀ l, some l ∈ s.eng.lanes → p l = false) : lanesWhere p 0 s.eng.lanes = [] := by
    rw [lanesWhere_eq_filterMap, List.filterMap_eq_nil_iff]
    intro i _
    split
    · rename_i l at'
      rw [quiet l (List.mem_of_getElem? at')]
      rfl
    · rfl
  unfold boundaryNow endAndStop
  simp only [none_pass _ fun l hl => (h l hl).1, none_pass _ fun l hl => (h l hl).2, List.append_nil, List.foldl_nil]

end Sys2Proof.Machine

namespace Sys2Proof.Claims

open Sys2Proof Sys2Proof.Machine

/-- Settles O30: the boundary with one lane and in general, the tiles' marks, a lane's release, and the landing pass. -/
theorem laneEndsOrStops : Obligations.LaneEndsOrStops := by
  refine ⟨?last, fun s due armed => ?boundary, ⟨fun m whole t => ?marks, fun l tiles k t at' => ?tiles⟩,
    fun s i l => ?release, fun s => ?lands⟩
  case last =>
    intro s due l pre post armed lanes free goes kept held stall queue waiting waits room lit
    let u : State := { s with now := max s.now due }
    have freed : s.eng.lanes.set pre.length none = pre ++ none :: post := by rw [lanes, List.set_append_right _ _ (Nat.le_refl _)]; simp
    have only (p : Lane → Bool) : lanesWhere p 0 u.eng.lanes = if p l = true then [(pre.length, l)] else [] := by
      rw [show u.eng.lanes = _ from lanes, lanesWhere_only p l free]
    have bare : ∀ x ∈ pre ++ none :: post, x = none := fun x hx => by
      rcases List.mem_append.1 hx with h | h
      · exact free x (List.mem_append_left post h)
      · exact (List.mem_cons.1 h).elim id fun h => free x (List.mem_append_right pre h)
    have done (status : Status) (img : ImageStore) (held' : img.held = []) (stall' : img.stall = none)
        (gone : endAndStop u = releaseLane pre.length l status { u with img := img })
        (went : lanesWhere Lane.finishes 0 u.eng.lanes ++ lanesWhere Lane.stops 0 u.eng.lanes = [(pre.length, l)]) :
        ∃ t : State, runs .frameBoundary s t ∧ t.img = img ∧ t.eng = { s.eng with
          lanes := pre ++ none :: post, supply := .off, boundary := none, base := none,
          completions := s.eng.completions ++ [l.record status] } ∧ t.light = s.light ∧ t.sup = s.sup ∧ t.store = s.store ∧
          t.content = s.content ∧ t.cache = s.cache ∧ t.now = max s.now due := by
      have eng := releaseLane_eng pre.length l status { u with img := img }
      refine ⟨_, runs_of_effect ((expire_armed armed boundaryNow s).trans
        (boundaryNow_last gone went ?_ ?_ ?_ ?_ kept)), ?_⟩
      · rw [eng]; exact freed ▸ bare
      · rw [eng]; exact queue
      · simpa [u] using waiting
      · simpa [u] using lit
      · refine ⟨releaseLane_img (s := { u with img := img }) held' stall' pre.length l status, ?_, by simp [u], by simp [u], by simp [u],
          by simp [u], by simp [u], by simp [u]⟩
        simp only [eng, kept, Bool.false_eq_true, if_false]
        rw [← freed]
    by_cases full : l.phase = l.total
    · have ends : l.finishes = true := by rcases goes with state | ⟨state, -⟩ <;> simp [Lane.finishes, state, full]
      have went : endAndStop u = endLane pre.length l u := by simp [endAndStop, only, ends, Lane.stops, full]
      obtain ⟨t, hrun, img, eng, light, sup, store, content, cache, now⟩ :=
        done .done { s.img with shown := planeCopy s.img.shown s.img.target l.region, tiles := tilesEnded l s.img.tiles }
          held stall went (by simp [only, ends, Lane.stops, full])
      exact ⟨t, hrun, fun _ => ⟨by rw [img], by rw [img]⟩, fun some' => absurd full some', by rw [img],
        by rw [eng], by rw [eng], by rw [eng], by rw [eng],
        by rw [eng, if_pos full]; rfl, light, sup, store, content, cache, now⟩
    · have state : l.state = .stopping := goes.elim id fun h => absurd h.2 full
      have stops : l.stops = true := by simp [Lane.stops, state, full]
      have went : endAndStop u = stopLane pre.length l u := by simp [endAndStop, only, stops, Lane.finishes, full]
      obtain ⟨t, hrun, img, eng, light, sup, store, content, cache, now⟩ :=
        done .aborted { s.img with
            shown := if 0 < l.phase then planeCopy s.img.shown s.img.target l.region else s.img.shown,
            tiles := tilesStopped l s.img.tiles } held stall
          (went.trans (by unfold stopLane; by_cases drove : 0 < l.phase <;> simp only [drove, if_true, if_false] <;> rfl))
          (by simp [only, stops, Lane.finishes, full])
      exact ⟨t, hrun, fun whole => absurd whole full, fun _ => ⟨by rw [img], by rw [img]⟩, by rw [img],
        by rw [eng], by rw [eng], by rw [eng], by rw [eng],
        by rw [eng, if_neg full]; rfl, light, sup, store, content, cache, now⟩
  case boundary =>
    intro those ends stops gone joined base off after
    have those_eq (p : Lane → Bool) : lanesWhere p 0 s.eng.lanes = those p := by
      rw [lanesWhere_eq_filterMap]
      simp only [Nat.zero_add]
      rfl
    have boundary : effect .frameBoundary s = after (joinAndOpen gone) := by
      refine (expire_armed armed boundaryNow s).trans ?_
      have ended : endAndStop { s with now := max s.now due } = gone := by
        simp only [endAndStop, those_eq]
        rfl
      simp only [boundaryNow, ended, those_eq]
      rfl
    refine ⟨fun left => runs_of_effect (boundary.trans ?_), fun none => ⟨fun includes => runs_of_effect (boundary.trans ?_),
      fun e p claiming picked bare => runs_of_effect (boundary.trans ?_)⟩⟩
    · rw [joinAndOpen_opens left]
      rfl
    · rw [joinAndOpen_stops none]
      exact congrArg after (raiseWaiting_includes (s := off) includes)
    · rw [joinAndOpen_stops none]
      refine congrArg after ((raiseWaiting_raises (s := off) claiming picked bare).trans ?_)
      rw [show raisePick (off.settingNat .panelBaseMa) = _ from funext (raisePick_eq _)]
      rfl
  case marks =>
    refine ⟨rfl, ?_, ?_, ?_, fun small => ?_⟩
    · cases m <;> rfl
    · cases m <;> cases whole <;> simp [tileEnded]
    · cases whole <;> simp [tileEnded]
    · cases m <;> cases whole <;> simp [tileEnded] <;> omega
  case tiles =>
    rw [tilesEnded_getElem?, tilesStopped_getElem?, at']
    refine ⟨fun holds => ⟨?_, ?_⟩, fun out => ⟨?_, ?_⟩⟩
    · simp [holds]
    · by_cases drove : 0 < l.phase <;> simp [holds, tileStopped, drove]
    · simp [out]
    · simp [out]
  case release =>
    intro gone
    refine ⟨?_, ?_⟩
    · exact releaseLane_eq i l .done _
    · refine (releaseLane_eq i l .aborted _).trans ?_
      by_cases drove : 0 < l.phase <;> simp only [drove, if_true, if_false, gone] <;> rfl
  case lands =>
    intro stays landed walked
    have stays_iff (u : State) (kept : List HeldPacket) (p : HeldPacket) : u.mustHold kept p = true ↔ stays u kept p :=
      mustHold_iff_tiles u kept p
    obtain ⟨⟨rest, sub, held⟩, stall⟩ := landWalk_held [] s.img.held s
    refine ⟨fun kept => rfl, fun kept p rest => ⟨fun h => ?_, fun h => ?_⟩, by rw [show walked.img.held = rest from held]; exact sub,
      fun idle => ?_, fun r p waits => ?_⟩
    · exact if_pos ((stays_iff s kept p).2 h)
    · exact if_neg (mt (stays_iff s kept p).1 h)
    · have idle' : walked.img.stall = none := stall.trans idle
      simp only [landingPass]
      rw [show (landWalk [] s.img.held s).img.stall = none from idle']
    · intro fits freed
      have waits' : walked.img.stall = some (r, p) := stall.trans waits
      have placed : landingPass s = placePacket r p walked := by
        simp only [landingPass]
        rw [show (landWalk [] s.img.held s).img.stall = some (r, p) from waits']
      have fits_iff : walked.heldFits p = true ↔ fits := heldFits_iff walked p
      refine ⟨fun free => ?_, fun h room => ?_, fun h full => ?_⟩
      · rw [placed, placePacket_lands (Bool.eq_false_iff.2 (mt (stays_iff _ _ p).1 free))]
        rfl
      · rw [placed, placePacket_holds ((stays_iff _ _ p).2 h) (fits_iff.2 room)]
      · rw [placed, placePacket_stalls ((stays_iff _ _ p).2 h) (Bool.eq_false_iff.2 (mt fits_iff.1 full)), ← waits']

/-- Settles O31: with no lane that ends or stops, the frame only opens. -/
theorem frameGivesNextPhase : Obligations.FrameGivesNextPhase := by
  intro s due armed occupied goes
  have quiet : ∀ l, some l ∈ s.eng.lanes → l.finishes = false ∧ l.stops = false := fun l hl => by
    obtain ⟨running, more⟩ := goes l hl
    cases state : l.state <;> simp_all [Lane.finishes, Lane.stops]
  have given : ∀ x ∈ s.eng.lanes, ((x.map Lane.join).map Lane.apply) =
      x.map fun l => { l with state := .driving, phase := l.phase + 1 } := fun x hx => by
    cases x with
    | none => rfl
    | some l =>
      obtain ⟨running, -⟩ := goes l hx
      cases state : l.state <;> simp_all [Lane.join, Lane.apply]
  have left : ∃ l ∈ s.eng.lanes.map fun l => l.map Lane.join, l ≠ none := by
    obtain ⟨l, hl⟩ := occupied
    exact ⟨_, List.mem_map.2 ⟨_, hl, rfl⟩, Option.some_ne_none _⟩
  refine runs_of_effect ((expire_armed armed boundaryNow s).trans ?_)
  rw [boundaryNow_none (s := { s with now := max s.now due }) quiet,
    joinAndOpen_opens (s := { s with now := max s.now due }) left, openFrame]
  have lanes : (s.eng.lanes.map fun l => l.map Lane.join).map (fun l => l.map Lane.apply) =
      s.eng.lanes.map fun x => x.map fun l => { l with state := .driving, phase := l.phase + 1 } := by
    rw [List.map_map]
    exact List.map_congr_left given
  rw [← lanes]
  rfl

end Sys2Proof.Claims
end

section
namespace Sys2Proof.Machine

open Sys2Proof Sys2Proof.Claims

/-! ## The look (R36, R37) -/

/-- Eligibility is the six conditions of R36. -/
theorem eligible_iff (s : State) (ahead : List QEntry) (e : QEntry) : s.eligible ahead e = true ↔ mayPick s ahead e := by
  have owned : s.owned e.tiles = false ↔ ∀ k t, s.img.tiles[k]? = some t → e.tiles.holds k = true → t.owner = none := by
    rw [← Bool.not_eq_true, State.owned, anyTile_iff]
    simp
  have held : (s.img.held.any fun p => decide (p.place < e.place) && p.tiles.meets e.tiles) = false ↔
      ∀ p ∈ s.img.held, p.place < e.place → p.tiles.meets e.tiles = false := by simp
  have lane : s.eng.lanes.any Option.isNone = true ↔ ∃ l ∈ s.eng.lanes, l = none := by simp
  have claiming : s.claimingEntry.isNone = true ↔ ∀ a ∈ s.eng.queue, a.pick = none := by
    rw [Option.isNone_iff_eq_none, claimingEntry_eq_none]
  simp only [State.eligible, Bool.and_eq_true, Bool.not_eq_true', owned, held, lane, claiming, mayPick, List.any_eq_false,
    Bool.not_eq_true, and_assoc]

/-- The first entry that is eligible is the one picked. -/
theorem firstEligible_first {s : State} {before ahead behind : List QEntry} {e : QEntry} (eligible : mayPick s (before ++ ahead) e)
    (first : ∀ pre a post, ahead = pre ++ a :: post → ¬ mayPick s (before ++ pre) a) :
    s.firstEligible before (ahead ++ e :: behind) = some e := by
  induction ahead generalizing before with
  | nil =>
    rw [List.nil_append, State.firstEligible, if_pos]
    rw [eligible_iff]
    simpa using eligible
  | cons a ahead ih =>
    have skipped : ¬ s.eligible before a = true := by
      rw [eligible_iff]
      simpa using first [] a ahead rfl
    rw [List.cons_append, State.firstEligible, if_neg skipped]
    refine ih (by simpa using eligible) fun pre b post split => ?_
    rw [List.append_assoc]
    exact first (a :: pre) b post (by rw [split]; rfl)

/-- With no eligible entry nothing is picked. -/
theorem firstEligible_none {s : State} {before q : List QEntry}
    (h : ∀ ahead e behind, q = ahead ++ e :: behind → ¬ mayPick s (before ++ ahead) e) : s.firstEligible before q = none := by
  induction q generalizing before with
  | nil => rfl
  | cons a q ih =>
    have skipped : ¬ s.eligible before a = true := by
      rw [eligible_iff]
      simpa using h [] a q rfl
    rw [State.firstEligible, if_neg skipped]
    refine ih fun ahead e behind split => ?_
    rw [List.append_assoc]
    exact h (a :: ahead) e behind (by rw [split]; rfl)

/-- An entry that ends leaves a shorter queue. -/
theorem endEntry_shorter {s : State} {e : QEntry} (h : e ∈ s.eng.queue) (status : Status) (m : Mode) (p : Bool) :
    (endEntry e status m p s).eng.queue.length < s.eng.queue.length := by
  simp only [endEntry, appendCompletion_eng, dropEntry]
  exact List.length_filter_lt_length_iff_exists.2 ⟨e, h, by simp⟩

/-- Fuel above the queue's length gives one and the same look. -/
theorem lookLoop_fuel (n m : Nat) (s : State) (hn : s.eng.queue.length < n) (hm : s.eng.queue.length < m) :
    lookLoop n s = lookLoop m s := by
  induction n generalizing m s with
  | zero => omega
  | succ n ih =>
    cases m with
    | zero => omega
    | succ m =>
      simp only [lookLoop]
      split
      · rfl
      · split
        · rfl
        · split
          · rfl
          · split
            · rfl
            · rename_i e picked
              have shorter := endEntry_shorter (firstEligible_mem s _ _ _ picked)
              split
              · rename_i mode promoted _
                have := shorter .noWaveform mode promoted
                exact ih m _ (by omega) (by omega)
              · rename_i mode promoted _
                have := shorter .lowSupply mode promoted
                exact ih m _ (by omega) (by omega)
              · rfl

section

variable {s : State}

/-- A look with an entry CLAIMING picks nothing. -/
theorem look_claiming (h : ∃ e ∈ s.eng.queue, e.pick ≠ none) : look s = s := by
  have claiming : s.claimingEntry.isSome = true := by
    rw [Option.isSome_iff_ne_none, ne_eq, claimingEntry_eq_none]
    intro unpicked
    obtain ⟨e, he, picked⟩ := h
    exact picked (unpicked e he)
  simp [look, lookLoop, claiming]

/-- A look without a fresh reading makes the demand for one. -/
theorem look_stale (queue : s.eng.queue ≠ []) (waiting : ∀ e ∈ s.eng.queue, e.pick = none) (stale : s.fresh? = false) :
    look s = tempDemand s := by
  simp [look, lookLoop, (claimingEntry_eq_none s).2 waiting, queue, stale]

/-- A look at a queue with a fresh reading is by the first eligible entry. -/
theorem look_fresh (waiting : ∀ e ∈ s.eng.queue, e.pick = none) (fresh : s.fresh? = true) :
    look s = match s.firstEligible [] s.eng.queue with
      | none => s
      | some e => match s.pickOf e with
        | .noWaveform m p => look (endEntry e .noWaveform m p s)
        | .lowSupply m p => look (endEntry e .lowSupply m p s)
        | .claims p => sendClaim e p s := by
  cases queue : s.eng.queue with
  | nil => simp [look, lookLoop, State.firstEligible, queue]
  | cons a q =>
    conv => lhs; simp only [look, lookLoop, (claimingEntry_eq_none s).2 waiting, queue, fresh]
    simp only [Option.isSome_none, Bool.false_eq_true, if_false, List.isEmpty_cons, Bool.true_eq_false]
    cases first : s.firstEligible [] (a :: q) with
    | none => rfl
    | some e =>
      have shorter := endEntry_shorter (firstEligible_mem s (a :: q) _ _ first |> (queue ▸ ·))
      rw [queue] at shorter
      simp only
      cases picked : s.pickOf e with
      | claims p => rfl
      | noWaveform m p => exact lookLoop_fuel _ _ _ (shorter .noWaveform m p) (Nat.lt_succ_self _)
      | lowSupply m p => exact lookLoop_fuel _ _ _ (shorter .lowSupply m p) (Nat.lt_succ_self _)

/-- A look that leaves the claims as they are is no decision point. -/
theorem lookPass_of_waiting (h : (look s).sup.waiting = s.sup.waiting) : lookPass s = look s := by
  simp [lookPass, h]

end

/-! ## The pick (R38 to R40) -/

/-- Promotion is by the marks of the entry's tiles (R38). -/
theorem promotes_iff (s : State) (e : QEntry) : s.promotes e = true ↔ e.noPromote = false ∧
    ∃ k t, s.img.tiles[k]? = some t ∧ e.tiles.holds k = true ∧ (t.unsure = true ∨ s.settingNat .residueLimit ≤ t.residue) := by
  simp [State.promotes, anyTile_iff]

/-- The base that a lane's start leaves. -/
theorem startLane_eq {s : State} {e : QEntry} {p : Pick} {i : Nat} (claiming : s.claimingEntry = some e)
    (picked : e.pick = some p) (free : s.eng.lanes[i]? = some none) (lowest : ∀ j < i, s.eng.lanes[j]? ≠ some none) :
    startLane s = startPanel { s with
      eng := { s.eng with
        queue := s.eng.queue.filter (fun a => a.num != e.num),
        lanes := s.eng.lanes.set i (some (laneOf e p (s.wavePhases p.wave))),
        base := if p.base = none then s.eng.base else p.base },
      img := { s.img with tiles := ownTiles i e.tiles s.img.tiles,
                          target := startTarget (s.settingNat .skimThreshold) p.mode p.region s.img.target },
      wav := { s.wav with waves := s.wav.waves.map fun w =>
        if w.num = p.wave then { w with lanes := w.lanes + 1, claimed := false } else w } } := by
  have lane : s.freeLane = i := findIdx_free s.eng.lanes i free lowest
  unfold startLane
  simp only [claiming, picked, lane]
  cases base : p.base <;> rfl

/-- The panel supply begins its start from OFF (R44). -/
theorem startPanel_eq (s : State) : startPanel s = { s with eng := { s.eng with
    supply := if s.eng.supply = .off then .starting else s.eng.supply,
    boundary := if s.eng.supply = .off then s.inUs 3000 else s.eng.boundary } } := by
  unfold startPanel
  split <;> rfl

end Sys2Proof.Machine

namespace Sys2Proof.Claims

open Sys2Proof Sys2Proof.Machine

/-- Settles O32: where the look holds back, and that its pick is the first entry that may be picked. -/
theorem lookRules : Obligations.LookRules := by
  refine ⟨fun s => ⟨fun claiming => ?_, fun bare => lookPass_empty s bare, fun queue waiting stale => ?_⟩,
    fun s => ⟨rfl, fun fresh waiting barred => ?_, fun ahead e behind queue eligible first => ?picks⟩⟩
  · have looked := look_claiming claiming
    rw [lookPass_of_waiting (by rw [looked]), looked]
  · have looked := look_stale queue waiting stale
    rw [lookPass_of_waiting (by rw [looked]; simp), looked]
  · rw [look_fresh waiting fresh, firstEligible_none (before := []) barred]
  case picks =>
    obtain ⟨-, -, -, -, ⟨fresh, -⟩, waiting⟩ := id eligible
    have found : s.firstEligible [] s.eng.queue = some e := by
      rw [queue]
      exact firstEligible_first eligible first
    have looked := look_fresh waiting fresh
    rw [found] at looked
    simp only at looked
    intro ended
    refine ⟨fun p pick => ?_, fun m promoted pick => ?_, fun m promoted pick => ?_⟩
    all_goals rw [looked, pick]; rfl

/-- Settles O33: the pick by the band, the slot and the limit, and the state a lane's start leaves. -/
theorem pickDecidesAndLaneStarts : Obligations.PickDecidesAndLaneStarts := by
  refine ⟨fun s e m promoted marks mode => ?picks, fun s e p i claiming picked free lowest => ?starts⟩
  case picks =>
    intro bounds count
    have promotes : s.promotes e = promoted := by rw [Bool.eq_iff_iff, promotes_iff, marks]
    have pick : s.pickOf e = match s.wav.band.bind (s.slot m) with
        | none => .noWaveform m promoted
        | some w =>
          if s.sup.limit < tilePartMa e.tiles.size w.current + s.settingNat .panelBaseMa then .lowSupply m promoted
          else .claims
            { mode := m, promoted := promoted, region := if promoted then e.tiles.bounds else e.region,
              wave := w.num, tilePart := tilePartMa e.tiles.size w.current,
              base := if s.eng.base.isSome then none else some (s.settingNat .panelBaseMa) } := by
      unfold State.pickOf
      simp only [promotes, ← mode] <;> rfl
    refine ⟨fun none => ?_, fun b band => ⟨fun empty => ?_, fun w slot => ?_⟩⟩
    · rw [pick, none]; rfl
    · rw [pick, band, Option.bind_some, empty]
    · intro part
      rw [pick, band, Option.bind_some, slot]
      refine ⟨fun above => if_pos above, fun fits => (if_neg (Nat.not_lt.2 fits)).trans ?_⟩
      cases s.eng.base <;> rfl
  case starts =>
    intro t
    have started : t = _ := (startLane_eq claiming picked free lowest).trans (startPanel_eq _)
    rw [started]
    refine ⟨rfl, rfl, rfl, fun k tile at' => ?_, rfl, ?_, fun text => ?_, fun skim => ?_, rfl, fun off => ?_, fun on => ?_,
      rfl, rfl, rfl, rfl, rfl, ?_⟩
    · simp [ownTiles, mapTiles_getElem?, at']
    · rintro (mode | mode) <;> simp [mode, startTarget]
    · simp [text, startTarget]; rfl
    · simp [skim, startTarget]; rfl
    · exact ⟨if_pos off, if_pos off⟩
    · exact ⟨if_neg on, if_neg on⟩
    · exact ⟨rfl, rfl, rfl, rfl, rfl, rfl, rfl, rfl, rfl⟩

end Sys2Proof.Claims
end

section
namespace Sys2Proof.Machine

open Sys2Proof Sys2Proof.Claims

/-! ## Lists changed at one place -/

/-- Two changes of one place agree when they agree on what stands there. -/
theorem modify_congr {α : Type} {l : List α} {c : Nat} {f g : α → α} (h : ∀ x, l[c]? = some x → f x = g x) :
    l.modify c f = l.modify c g := by
  apply List.ext_getElem?
  intro i
  rw [List.getElem?_modify, List.getElem?_modify]
  by_cases at' : c = i
  · subst at'
    cases place : l[c]? with
    | none => rfl
    | some x => simp [h x place]
  · simp [at']

/-- A change to nothing new changes nothing. -/
theorem modify_id {α : Type} (l : List α) (c : Nat) : l.modify c id = l := by
  apply List.ext_getElem?
  intro i
  rw [List.getElem?_modify]
  simp

/-- A channel's place in the table. -/
theorem channel_of_getElem? {s : State} {c : Nat} {ch : Channel} (h : s.fetch.channels[c]? = some ch) : s.channel c = ch := by
  simp [State.channel, List.getD_eq_getElem?_getD, h]

/-- A channel of a number beyond the table is CLOSED. -/
theorem channel_lt {s : State} {c : Nat} (h : (s.channel c).state ≠ .closed) : c < s.fetch.channels.length := by
  refine Classical.byContradiction fun beyond => ?_
  rw [State.channel, List.getD_eq_getElem?_getD, List.getElem?_eq_none (Nat.not_lt.1 beyond)] at h
  exact h rfl

/-- The cyclic order holds the four channels. -/
theorem mem_channelsAfter (n c : Nat) : c ∈ channelsAfter n ↔ c < 4 := by
  simp only [channelsAfter, List.mem_cons, List.not_mem_nil, or_false]
  omega

/-! ## Credits (R120) -/

/-- A channel wants a credit when it is ARMED and has window room. -/
theorem wantsCredit_iff (s : State) (c : Nat) : s.wantsCredit c = true ↔
    (s.channel c).state = .armed ∧ s.credits c < s.windowWants c := by
  simp [State.wantsCredit]

/-- The part grants credits in ACTIVE and DOZE, while page memory allows one. -/
theorem grantsCredits_iff (s : State) : s.grantsCredits = true ↔
    (s.pow.state = .active ∨ s.pow.state = .doze) ∧ 1 ≤ s.availableToFetch := by
  simp [State.grantsCredits]

/-- What stands before the first that passes does not pass. -/
theorem find?_before {l : List Nat} {p : Nat → Bool} {c d : Nat} (found : l.find? p = some c) (h : d ∈ l.takeWhile fun d => d != c) :
    p d = false := by
  induction l with
  | nil => cases found
  | cons x l ih =>
    by_cases passes : p x = true
    · rw [List.find?_cons_of_pos passes] at found
      obtain rfl := Option.some_inj.1 found
      simp at h
    · rw [List.find?_cons_of_neg passes] at found
      rw [List.takeWhile_cons] at h
      split at h
      · rcases List.mem_cons.1 h with rfl | h
        · exact Bool.eq_false_iff.2 passes
        · exact ih found h
      · cases h

/-! ## The slot's choice (R126) -/

/-- The lowest programmable chunk of a channel. -/
theorem programmable_eq_some {s : State} {c i : Nat} (ready : programReady s c i) (lowest : ∀ j < i, ¬ programReady s c j) :
    s.programmable c = some i := by
  obtain ⟨armed, staged, m, manifest, below, passed⟩ := ready
  unfold State.programmable
  rw [manifest]
  simp only [armed, if_true]
  rw [List.find?_range_eq_some]
  refine ⟨by simp [staged, passed], by simpa using below, fun j hj => ?_⟩
  rw [Bool.not_eq_true', Bool.and_eq_false_iff]
  refine Classical.byContradiction fun both => ?_
  simp only [not_or, Bool.not_eq_false, beq_iff_eq, decide_eq_true_eq] at both
  exact lowest j hj ⟨armed, both.1, m, manifest, by omega, both.2⟩

/-- A channel without a programmable chunk. -/
theorem programmable_eq_none {s : State} {c : Nat} (h : ∀ i, ¬ programReady s c i) : s.programmable c = none := by
  unfold State.programmable
  split
  · rfl
  · rename_i m manifest
    split
    · rename_i armed
      rw [List.find?_eq_none]
      intro i hi passes
      rw [Bool.and_eq_true, beq_iff_eq, decide_eq_true_eq] at passes
      exact h i ⟨armed, passes.1, m, manifest, List.mem_range.1 hi, passes.2⟩
    · rfl

/-- A channel qualifies for an erase (R126). -/
theorem erasable_iff (s : State) (c : Nat) : s.erasable c = true ↔ eraseReady s c := by
  unfold State.erasable eraseReady
  cases manifest : (s.channel c).manifest with
  | none => simp
  | some m =>
    simp only [Bool.and_eq_true, beq_iff_eq, decide_eq_true_eq, Bool.or_eq_true, bne_iff_ne, List.any_eq_true,
      List.mem_range, Option.some.injEq, exists_eq_left', and_assoc]
    by_cases draining : s.pow.state = .draining <;> simp [draining]

/-- The slot may take a choice (R126). -/
def State.slotFree (s : State) : Prop := s.fetch.slot = none ∧ s.fetch.paused = false ∧ s.pow.state.awake = true

/-- Without a free slot, or without a channel that qualifies, nothing is chosen. -/
theorem fetchChoice_none {s : State} (h : ¬ s.slotFree ∨ ∀ c < 4, (∀ i, ¬ programReady s c i) ∧ ¬ eraseReady s c) :
    s.fetchChoice = none := by
  unfold State.fetchChoice
  split
  · rename_i free
    have none_ready := h.resolve_left (Classical.not_not.2 (by simpa [State.slotFree, and_assoc] using free))
    have programs : (channelsAfter s.fetch.lastGiven).findSome? (fun c => (s.programmable c).map fun i => (c, i)) = none := by
      rw [List.findSome?_eq_none_iff]
      intro c hc
      rw [programmable_eq_none (none_ready c ((mem_channelsAfter _ c).1 hc)).1, Option.map_none]
    have erases : (channelsAfter s.fetch.lastGiven).find? s.erasable = none := by
      rw [List.find?_eq_none]
      intro c hc passes
      exact (none_ready c ((mem_channelsAfter _ c).1 hc)).2 ((erasable_iff s c).1 passes)
    rw [programs]
    simp only [erases, Option.map_none]
  · rfl

section

variable {s : State} {before behind : List Nat} {c : Nat}

/-- The first channel with a programmable chunk is chosen. -/
theorem fetchChoice_program {i : Nat} (free : s.slotFree) (order : channelsAfter s.fetch.lastGiven = before ++ c :: behind)
    (ready : programReady s c i) (lowest : ∀ j < i, ¬ programReady s c j) (first : ∀ d ∈ before, ∀ j, ¬ programReady s d j) :
    s.fetchChoice = some (c, some i) := by
  obtain ⟨slot, paused, awake⟩ := free
  have found : (channelsAfter s.fetch.lastGiven).findSome? (fun c => (s.programmable c).map fun i => (c, i)) = some (c, i) := by
    have passed : before.findSome? (fun c => (s.programmable c).map fun i => (c, i)) = none := by
      rw [List.findSome?_eq_none_iff]
      intro d hd
      rw [programmable_eq_none (first d hd), Option.map_none]
    rw [order, List.findSome?_append, passed, Option.none_or, List.findSome?_cons, programmable_eq_some ready lowest]
    rfl
  unfold State.fetchChoice
  simp [slot, paused, awake, found]

/-- Without a programmable chunk the first channel that qualifies for an erase is chosen. -/
theorem fetchChoice_erase (free : s.slotFree) (order : channelsAfter s.fetch.lastGiven = before ++ c :: behind)
    (ready : eraseReady s c) (bare : ∀ d < 4, ∀ j, ¬ programReady s d j) (first : ∀ d ∈ before, ¬ eraseReady s d) :
    s.fetchChoice = some (c, none) := by
  obtain ⟨slot, paused, awake⟩ := free
  have programs : (channelsAfter s.fetch.lastGiven).findSome? (fun c => (s.programmable c).map fun i => (c, i)) = none := by
    rw [List.findSome?_eq_none_iff]
    intro d hd
    rw [programmable_eq_none (bare d ((mem_channelsAfter _ d).1 hd)), Option.map_none]
  have found : (channelsAfter s.fetch.lastGiven).find? s.erasable = some c := by
    rw [order, List.find?_append, List.find?_eq_none.2 fun d hd => mt (erasable_iff s d).1 (first d hd), Option.none_or,
      List.find?_cons_of_pos ((erasable_iff s c).2 ready)]
  unfold State.fetchChoice
  simp [slot, paused, awake, programs, found]

end

/-- A choice is of an ARMED channel of the four. -/
theorem fetchChoice_armed {s : State} {c : Nat} {chunk : Option Nat} (h : s.fetchChoice = some (c, chunk)) :
    c < 4 ∧ (s.channel c).state = .armed := by
  unfold State.fetchChoice at h
  split at h
  · split at h
    · rename_i d i found
      cases h
      obtain ⟨e, he, chosen⟩ := List.exists_of_findSome?_eq_some found
      rw [Option.map_eq_some_iff] at chosen
      obtain ⟨j, programmable, same⟩ := chosen
      cases same
      refine ⟨(mem_channelsAfter _ _).1 he, ?_⟩
      refine Classical.byContradiction fun unarmed => ?_
      rw [programmable_eq_none fun k ready => unarmed ready.1] at programmable
      cases programmable
    · rw [Option.map_eq_some_iff] at h
      obtain ⟨d, found, same⟩ := h
      cases same
      exact ⟨(mem_channelsAfter _ _).1 (List.mem_of_find?_eq_some found), ((erasable_iff s c).1 (List.find?_some found)).1⟩
  · cases h

/-- A choice that joins the store's queue is followed by a selection. -/
theorem schedulePoint_chooses {s : State} {c : Nat} {chunk : Option Nat} (choice : s.fetchChoice = some (c, chunk))
    (online : s.store.flash ≠ .offline) :
    schedulePoint s = selectPoint (joinQueue .fetch (s.offerKind c chunk) (fillSlot c chunk s)) := by
  unfold schedulePoint scheduleLoop
  simp only [choice, if_neg online]

/-! ## Failures of a channel (R125) -/

/-- The channels after a failure: the failed one, and the others as they were. -/
theorem failCore_channels (c : Nat) (r : FailReason) (s : State) : (failCore c r s).fetch.channels =
    s.fetch.channels.modify c fun ch =>
      Channel.recordEvent { ch with state := .failed, reason := some r, chunks := ch.chunks.map Chunk.emptied } 2 := by
  unfold failCore creditPoint
  simp only [creditLoop_channels]
  split <;> simp [State.onChannel, freeChannel]

/-- An outcome without LOW_SUPPLY leaves no pause behind. -/
theorem emptySlot_fault (s : State) : emptySlot .fault s = { s with fetch := { s.fetch with slot := none } } := by
  simp [emptySlot]

/-- A chosen chunk becomes WRITING. -/
def chosenChunk : Option Nat → Channel → Channel
  | some i => Channel.onChunk i (Chunk.become .writing)
  | none => id

/-- What the slot's taking of a choice changes. -/
theorem fillSlot_eq (c : Nat) (chunk : Option Nat) (s : State) : fillSlot c chunk s = { s with fetch := { s.fetch with
    channels := s.fetch.channels.modify c (chosenChunk chunk), lastGiven := c,
    slot := some { channel := c, chunk := chunk, ignored := false } } } := by
  cases chunk with
  | none => simp only [chosenChunk, modify_id]; rfl
  | some i => rfl

/-- An offer to an OFFLINE store ends FAULT, which fails its channel. -/
theorem fetchOutcome_offered {s : State} {c : Nat} {chunk : Option Nat} (armed : (s.channel c).state = .armed) :
    fetchOutcome .fault (fillSlot c chunk s) = failCore c .storeFault { s with fetch := { s.fetch with
      channels := s.fetch.channels.modify c (chosenChunk chunk), lastGiven := c, slot := none } } := by
  have inside := channel_lt (by rw [armed]; decide)
  have still : ((s.onChannel c (chosenChunk chunk)).channel c).state = .armed := by
    rw [channel_onChannel s c _ inside]
    cases chunk <;> exact armed
  rw [fillSlot_eq]
  unfold fetchOutcome
  simp only [emptySlot_fault, Bool.false_eq_true, if_false]
  refine (if_pos still).trans ?_
  cases chunk <;> rfl

/-! ## The choice at an OFFLINE store (R126, R145) -/

/-- The ARMED channels of the four. -/
def State.armedChannels (s : State) : List Nat := (List.range 4).filter fun d => (s.channel d).state = .armed

/-- A failed channel is no longer ARMED, and no other becomes so. -/
theorem armedChannels_failed {s u : State} {c : Nat} (f : Channel → Channel) (four : c < 4) (armed : (s.channel c).state = .armed)
    (r : FailReason) (changed : u.fetch.channels = s.fetch.channels.modify c f) :
    (failCore c r u).armedChannels.length < s.armedChannels.length := by
  have inside := channel_lt (by rw [armed]; decide)
  have others (d : Nat) (other : d ≠ c) : (failCore c r u).channel d = s.channel d := by
    have first : ({ u with fetch := { u.fetch with channels := s.fetch.channels.modify c f } } : State).channel d = s.channel d :=
      channel_onChannel_ne s c d f other
    rw [← first, ← changed]
    unfold State.channel
    rw [failCore_channels]
    exact channel_onChannel_ne u c d _ other
  have failed : ((failCore c r u).channel c).state = .failed := by
    have inside' : c < u.fetch.channels.length := by rw [changed, List.length_modify]; exact inside
    unfold State.channel
    rw [failCore_channels]
    exact congrArg Channel.state (channel_onChannel u c _ inside')
  have left : (failCore c r u).armedChannels = s.armedChannels.filter fun d => ((failCore c r u).channel d).state = .armed := by
    simp only [State.armedChannels, List.filter_filter]
    refine List.filter_congr fun d _ => ?_
    by_cases same : d = c
    · rw [same, failed]; rfl
    · rw [others d same, Bool.and_self]
  rw [left]
  refine List.length_filter_lt_length_iff_exists.2 ⟨c, ?_, by rw [failed]; decide⟩
  exact List.mem_filter.2 ⟨List.mem_range.2 four, by rw [armed]; decide⟩

/-- An offer that fails leaves fewer ARMED channels. -/
theorem armedChannels_offered {s : State} {c : Nat} {chunk : Option Nat} (choice : s.fetchChoice = some (c, chunk)) :
    (fetchOutcome .fault (fillSlot c chunk s)).armedChannels.length < s.armedChannels.length := by
  obtain ⟨four, armed⟩ := fetchChoice_armed choice
  rw [fetchOutcome_offered armed]
  exact armedChannels_failed (chosenChunk chunk) four armed .storeFault rfl

/-- Fuel above the ARMED channels gives one and the same choice. -/
theorem scheduleLoop_fuel (n m : Nat) (s : State) (hn : s.armedChannels.length < n) (hm : s.armedChannels.length < m) :
    scheduleLoop n s = scheduleLoop m s := by
  induction n generalizing m s with
  | zero => omega
  | succ n ih =>
    cases m with
    | zero => omega
    | succ m =>
      unfold scheduleLoop
      split
      · rfl
      · rename_i c chunk choice
        have fewer := armedChannels_offered choice
        simp only
        split
        · exact ih m _ (by omega) (by omega)
        · rfl

/-- A choice at an OFFLINE store fails its channel, and the choice is made again. -/
theorem schedulePoint_offline {s : State} {c : Nat} {chunk : Option Nat} (choice : s.fetchChoice = some (c, chunk))
    (offline : s.store.flash = .offline) : schedulePoint s = schedulePoint (fetchOutcome .fault (fillSlot c chunk s)) := by
  have fewer := armedChannels_offered choice
  have four : s.armedChannels.length ≤ 4 := List.length_filter_le _ (List.range 4)
  unfold schedulePoint
  conv => lhs; unfold scheduleLoop
  simp only [choice, if_pos offline]
  rw [scheduleLoop_fuel 4 5 _ (by omega) (by omega)]

/-- The slabs of one holder pass to FREE. -/
theorem freeSlabs_eq (x : Holder) (pool : List Holder) :
    freeSlabs (fun h => h == x) pool = pool.map fun h => if h = x then .free else h := by
  simp [freeSlabs]

/-! ## Outcomes (R127 to R129) -/

section

variable {s : State} {o : SlotOp} {e : OpEnd}

/-- An outcome to be ignored empties the slot alone. -/
theorem fetchOutcome_ignored (slot : s.fetch.slot = some o) (ignored : o.ignored = true) : fetchOutcome e s = emptySlot e s := by
  simp [fetchOutcome, slot, ignored]

theorem fetchOutcome_unarmed (slot : s.fetch.slot = some o) (own : o.ignored = false) (unarmed : (s.channel o.channel).state ≠ .armed) :
    fetchOutcome e s = closingCheck o.channel (emptySlot e s) := by
  unfold fetchOutcome
  simp only [slot, own, Bool.false_eq_true, if_false]
  exact if_neg unarmed

theorem fetchOutcome_armed (slot : s.fetch.slot = some o) (own : o.ignored = false) (armed : (s.channel o.channel).state = .armed) :
    fetchOutcome e s = match o.chunk with
      | none => eraseOutcome o.channel e (emptySlot e s)
      | some i => programOutcome o.channel i e (emptySlot e s) := by
  unfold fetchOutcome
  simp only [slot, own, Bool.false_eq_true, if_false]
  exact if_pos armed

end

/-- Changes of a channel that agree on it are the same. -/
theorem onChannel_congr {s : State} {c : Nat} {f g : Channel → Channel} (h : f (s.channel c) = g (s.channel c)) :
    s.onChannel c f = s.onChannel c g := by
  have same : s.fetch.channels.modify c f = s.fetch.channels.modify c g := modify_congr fun ch at' => by
    rw [← channel_of_getElem? at']
    exact h
  unfold State.onChannel
  rw [same]

/-- Two changes of a channel are one. -/
theorem onChannel_onChannel (s : State) (c : Nat) (f g : Channel → Channel) :
    (s.onChannel c f).onChannel c g = s.onChannel c (g ∘ f) := by
  unfold State.onChannel
  rw [List.modify_modify_eq]

/-- The channel with a chunk more stored, before its mark is judged. -/
def storedChunk (i : Nat) (ch : Channel) : Channel :=
  let ch1 := { Channel.onChunk i (Chunk.become .stored) ch with stored := ch.stored + 1 }
  { ch1 with pfx := leadingStored ch1.chunks }

/-- The mark is reached with the chunk stored (R129). -/
abbrev Channel.marks (i : Nat) (m : Manifest) (ch : Channel) : Prop :=
  0 < m.mark ∧ (storedChunk i ch).reached = false ∧ m.mark ≤ (storedChunk i ch).pfx

/-- The channel after a chunk of its is stored: the leading run of stored chunks grows, and reaching the mark is recorded once
(R129, R130). -/
def Channel.stores (i : Nat) (m : Manifest) (ch : Channel) : Channel :=
  if ch.marks i m then Channel.recordEvent { storedChunk i ch with reached := true } 0 else storedChunk i ch

/-- A chunk stored, by whether it is its manifest's last (R128 to R130). -/
theorem chunkStored_eq {s : State} {c : Nat} (i : Nat) {m : Manifest} (inside : c < s.fetch.channels.length)
    (manifest : (s.channel c).manifest = some m) : chunkStored c i s =
      let u := moderatedTrigger .fetch ((freeChunk c i s).onChannel c fun _ => (s.channel c).stores i m)
      creditPoint (if (s.channel c).stored + 1 = m.count then
        forcedTrigger .fetch (u.onChannel c fun ch => Channel.recordEvent { ch with state := .finished } 1) else u) := by
  have first := channel_onChannel (freeChunk c i s) c (storedChunk i) inside
  have marked : (if (s.channel c).marks i m then
      ((freeChunk c i s).onChannel c (storedChunk i)).onChannel c fun ch => Channel.recordEvent { ch with reached := true } 0
      else (freeChunk c i s).onChannel c (storedChunk i)) = (freeChunk c i s).onChannel c fun _ => (s.channel c).stores i m := by
    rw [onChannel_onChannel, ← apply_ite (State.onChannel (freeChunk c i s) c)]
    refine onChannel_congr ?_
    show _ = (s.channel c).stores i m
    unfold Channel.stores
    split <;> rfl
  have after : ∀ u : State, u.fetch = ((freeChunk c i s).onChannel c fun _ => (s.channel c).stores i m).fetch →
      (u.channel c).stored = (s.channel c).stored + 1 := fun u same => by
    have at' : u.channel c = (s.channel c).stores i m := by
      unfold State.channel
      rw [same]
      exact channel_onChannel (freeChunk c i s) c _ inside
    rw [at']
    unfold Channel.stores
    split <;> rfl
  have manifest' : (storedChunk i (s.channel c)).manifest = some m := manifest
  have unfreed : (freeChunk c i s).channel c = s.channel c := rfl
  unfold chunkStored
  simp only [show (fun ch : Channel => ({ { Channel.onChunk i (Chunk.become .stored) ch with stored := ch.stored + 1 } with
    pfx := leadingStored { Channel.onChunk i (Chunk.become .stored) ch with stored := ch.stored + 1 }.chunks } : Channel)) =
      storedChunk i from rfl, first, unfreed, manifest', marked]
  rw [after _ (moderatedTrigger_frame .fetch _).2.2.2.2.2.2.2.2.2.2.2.2.2.2.2.2.1]

end Sys2Proof.Machine

namespace Sys2Proof.Claims

open Sys2Proof Sys2Proof.Machine

/-- Settles O34: the taker of a credit, the choice for the slot by the first that qualifies, and an outcome by its kind. -/
theorem creditsGoRound : Obligations.CreditsGoRound := by
  refine ⟨fun s c taker => ?credit, fun s slabs => ?point, fun s => ?schedules,
    fun s offline slot paused awake before c behind order => ?fails,
    fun s o e slot => ?outcomes⟩
  case credit =>
    obtain ⟨grants, found⟩ := creditTaker_spec s c taker
    obtain ⟨state, available⟩ := (grantsCredits_iff s).1 grants
    obtain ⟨armed, room⟩ := (wantsCredit_iff s c).1 (List.find?_some found)
    have free : 0 < s.freeCount := by unfold State.availableToFetch at available; omega
    obtain ⟨credits, slabs⟩ := grantCredit_counts c s free
    exact ⟨state, available, (mem_channelsAfter _ c).1 (List.mem_of_find?_eq_some found), armed, room,
      fun d hd => by rw [← wantsCredit_iff, find?_before found hd]; decide, credits, by omega, rfl⟩
  case point =>
    exact creditLoop_creditTaker _ s (Nat.le_trans List.countP_le_length (Nat.le_of_eq slabs))
  case schedules =>
    intro may offered
    refine ⟨fun quiet => ?_, fun free online before c behind order => ⟨fun i m ready manifest lowest first => ?_,
      fun ready bare first => ?_⟩⟩
    · unfold schedulePoint scheduleLoop
      simp only [fetchChoice_none quiet]
    · rw [schedulePoint_chooses (fetchChoice_program free order ready lowest first) online, fillSlot_eq]
      simp only [State.offerKind, manifest]
      rfl
    · rw [schedulePoint_chooses (fetchChoice_erase free order ready bare first) online, fillSlot_eq]
      rfl
  case fails =>
    intro failed
    have free : s.slotFree := ⟨slot, paused, awake⟩
    have offered {chunk : Option Nat} (choice : s.fetchChoice = some (c, chunk)) :
        schedulePoint s = schedulePoint (failed (chosenChunk chunk)) := by
      rw [schedulePoint_offline choice offline, fetchOutcome_offered (fetchChoice_armed choice).2, ← slot]
    have writing (i : Nat) : chosenChunk (some i) = fun ch =>
      { ch with chunks := ch.chunks.modify i fun k => { k with state := .writing } } := rfl
    have erasing : chosenChunk none = id := rfl
    refine ⟨fun i ready lowest first => ?_, fun ready bare first => ?_⟩
    · rw [← writing]
      exact offered (fetchChoice_program free order ready lowest first)
    · rw [← erasing]
      exact offered (fetchChoice_erase free order ready bare first)
  case outcomes =>
    intro c ch empty
    have empty_id : emptySlot e s = empty id := by simp only [empty, modify_id]; rfl
    refine ⟨fun ignored => (fetchOutcome_ignored slot ignored).trans empty_id,
      fun own unarmed => (fetchOutcome_unarmed slot own unarmed).trans (by rw [empty_id]), fun own armed erase => ?erase,
      fun i own armed program => ?program⟩
    case erase =>
      have done := fetchOutcome_armed (e := e) slot own armed
      rw [erase] at done
      refine ⟨?_, ?_, ?_, ?_⟩
      · rintro rfl
        exact done
      · rintro rfl fresh
        exact done.trans (if_neg (by rw [show ((emptySlot .timeout s).channel c).eraseRetry = false from fresh]; decide))
      · rintro (rfl | ⟨rfl, retried⟩)
        · exact done.trans (congrArg (failCore c .storeFault) empty_id)
        · exact done.trans ((if_pos retried).trans (congrArg (failCore c .storeFault) empty_id))
      · rintro rfl
        exact done.trans empty_id
    case program =>
      have done := fetchOutcome_armed (e := e) slot own armed
      rw [program] at done
      refine ⟨?_, ?_, ?_, ?_⟩
      · rintro rfl fresh
        exact done.trans (if_neg (by rw [show (((emptySlot .timeout s).channel c).chunk i).retry = false from fresh]; decide))
      · rintro (rfl | ⟨rfl, retried⟩)
        · exact done.trans (congrArg (failCore c .storeFault) empty_id)
        · exact done.trans ((if_pos retried).trans (congrArg (failCore c .storeFault) empty_id))
      · rintro rfl
        exact done
      · rintro rfl m manifest
        intro chunks pfx hit stored u
        have inside : c < s.fetch.channels.length := channel_lt (by rw [armed]; decide)
        have stored_eq : ch.stores i m = stored := by
          have hit_iff : hit = true ↔ ch.marks i m := by
            simp only [hit, Bool.and_eq_true, Bool.not_eq_true', decide_eq_true_eq, and_assoc]
            rfl
          unfold Channel.stores
          by_cases reached : ch.marks i m
          · simp only [if_pos reached, stored, hit_iff.2 reached, if_true, Bool.or_true]
            rfl
          · simp only [if_neg reached, stored, Bool.eq_false_iff.2 (mt hit_iff.1 reached), Bool.or_false, Bool.false_eq_true, if_false]
            rfl
        have u_eq : moderatedTrigger .fetch ((freeChunk c i (emptySlot .ok s)).onChannel c fun _ => ch.stores i m) = u := by
          rw [stored_eq]
          simp only [u, freeChunk, freeSlabs_eq]
          rfl
        have told : fetchOutcome .ok s = creditPoint (if ch.stored + 1 = m.count then
            forcedTrigger .fetch (u.onChannel c fun ch => Channel.recordEvent { ch with state := .finished } 1) else u) := by
          rw [← u_eq]
          exact done.trans (chunkStored_eq (s := emptySlot .ok s) i inside manifest)
        refine ⟨fun more => ?_, fun last => ?_⟩
        · rw [told, if_neg more]
        · rw [told, if_pos last]
          rfl

end Sys2Proof.Claims
end

section
namespace Sys2Proof.Machine

open Sys2Proof Sys2Proof.Claims

/-! ## FETCH_OPEN (R114) -/

/-- The fields of FETCH_OPEN are legal (R114 checks 3 and 4). -/
theorem manifestOf_legal_iff (b : List Byte) : (manifestOf b).legal = true ↔
    1 ≤ nat32At b 3 ∧ nat32At b 3 ≤ 268435456 ∧ nat32At b 7 % 131072 = 0 ∧ (manifestOf b).count ≤ 4096 ∧ 1 ≤ byteAt b 2 ∧
      byteAt b 2 ≤ 64 ∧ nat16At b 11 ≤ (manifestOf b).count ∧ nat32At b 7 + nat32At b 3 ≤ 536870912 := by
  simp only [Manifest.legal, Bool.and_eq_true, decide_eq_true_eq, beq_iff_eq, and_assoc]
  rfl

/-- No sector of the store range is another open channel's (R114 check 6). -/
theorem rangeTaken_eq_false_iff (s : State) (m : Manifest) : s.rangeTaken m = false ↔
    ∀ ch ∈ s.fetch.channels, ch.state ≠ .closed → ∀ q, ch.manifest = some q → m.last < q.first ∨ q.last < m.first := by
  unfold State.rangeTaken
  rw [List.any_eq_false]
  refine forall₂_congr fun ch _ => ?_
  cases manifest : ch.manifest with
  | none => simp
  | some q =>
    simp only [Bool.and_eq_true, bne_iff_ne, decide_eq_true_eq, Option.some.injEq, forall_eq', not_and, Nat.not_le]
    refine imp_congr_right fun _ => ?_
    omega

/-! ## FETCH_CLOSE (R117) -/

/-- A frame of the channel's is in reception. -/
theorem inReception_iff (s : State) (c : Nat) : s.inReception c = true ↔ ∃ f, s.fetch.reception = some f ∧ f.channel = c := by
  unfold State.inReception
  cases s.fetch.reception <;> simp

/-- An operation of the channel's own is in flight. -/
theorem ownInFlight_iff (s : State) (c : Nat) : s.ownInFlight c = true ↔
    ∃ o, s.fetch.slot = some o ∧ o.channel = c ∧ o.ignored = false := by
  unfold State.ownInFlight
  cases s.fetch.slot <;> simp

/-- A CLOSING channel closes with nothing of its own in flight. -/
theorem closingCheck_closes {s : State} {c : Nat} (closing : (s.channel c).state = .closing) (unframed : s.inReception c = false)
    (idle : s.ownInFlight c = false) : closingCheck c s = becomeClosed c s := if_pos ⟨closing, unframed, idle⟩

theorem closingCheck_waits {s : State} {c : Nat}
    (h : (s.channel c).state ≠ .closing ∨ s.inReception c = true ∨ s.ownInFlight c = true) : closingCheck c s = s := by
  refine if_neg fun all => ?_
  obtain ⟨closing, unframed, idle⟩ := all
  rw [unframed, idle] at h
  simp [closing] at h

/-- What becoming CLOSED changes, before the notice and the credit point (R117). -/
theorem becomeClosed_eq (c : Nat) (s : State) : becomeClosed c s = creditPoint (forcedTrigger .fetch { s with
    pool := freeSlabs (Holder.ofChannel c) s.pool,
    fetch := { s.fetch with channels := s.fetch.channels.modify c fun ch => { ch with
      state := .closed, manifest := none, chunks := [], refetch := [], eraseRetry := false, events := ch.events ||| 8 } } }) := rfl

/-! ## Headers and frames (R122 to R124) -/

/-- A header while the port is closed or a frame is in reception does nothing (logs 2 and 28). -/
theorem chunkHeader_ignored {s : State} (h : List Byte) (closed : s.pow.state.awake = false ∨ s.fetch.reception ≠ none) :
    effect (.chunkHeader h) s = s := by
  refine if_neg fun open' => ?_
  rw [Bool.and_eq_true, Option.isNone_iff_eq_none] at open'
  obtain ⟨awake, bare⟩ := open'
  rcases closed with asleep | framed
  · rw [State.radioOpen, asleep] at awake; cases awake
  · exact framed bare

theorem chunkHeader_judged {s : State} (h : List Byte) (awake : s.pow.state.awake = true) (bare : s.fetch.reception = none) :
    effect (.chunkHeader h) s = headerNow h s := by
  refine if_pos ?_
  rw [State.radioOpen, awake, bare]
  rfl

/-- The header's checks after the first three (R122). -/
theorem headerCheck_channel {s : State} {h : List Byte} (good : ¬ (crc16 (h.take 7) ≠ BitVec.ofNat 16 (nat16At h 7) ∨
    3 < byteAt h 0 ∨ (s.channel (byteAt h 0)).state ≠ .armed)) : s.headerCheck h =
      if s.credits (byteAt h 0) = 0 then .noCredit
      else if (s.channel (byteAt h 0)).inWindow (nat16At h 1) = false then .outOfWindow
      else match ((s.channel (byteAt h 0)).chunk (nat16At h 1)).state with
        | .staged | .writing | .stored => .duplicate
        | .missing | .bad =>
          if nat32At h 3 = (s.channel (byteAt h 0)).expected (nat16At h 1) then .received else .wrongLength := by
  obtain ⟨crc, channel⟩ := not_or.1 good
  unfold State.headerCheck
  simp only
  rw [if_neg crc, if_neg channel] <;> rfl

/-- A frame is good when its payload is whole and its sum is the manifest's (R123). -/
theorem frameGood_iff (s : State) (f : Reception) (p : List Byte) : s.frameGood f p = true ↔
    f.length ≤ p.length ∧ some (crc32 (p.take f.length)) = (s.channel f.channel).sumOf f.index := by
  simp [State.frameGood]

/-- A frame's end (R123). -/
theorem frameEnd_eq {s : State} {f : Reception} (p : List Byte) (framed : s.fetch.reception = some f) :
    effect (.chunkFrameEnd p) s = frameEndNow f p s := by
  show (match s.fetch.reception with
    | none => s
    | some f => frameEndNow f p s) = _
  rw [framed]

/-- A chunk marked BAD with its refetch list. -/
def badChunk (i : Nat) (refetch : List Nat → List Nat) (ch : Channel) : Channel :=
  { ch with chunks := ch.chunks.modify i fun k => { k with state := .bad, bad := k.bad + 1, payload := [] },
            refetch := refetch ch.refetch }

/-- A chunk found BAD that does not fail its channel is a credit point (R124). -/
theorem foundBad_lists {s : State} {c i : Nat} (refetch : List Nat → List Nat)
    (result : badResult (s.channel c) i = .inr (refetch (s.channel c).refetch)) :
    foundBad c i s = creditPoint (s.onChannel c (badChunk i refetch)) := by
  unfold foundBad
  rw [result]
  refine congrArg creditPoint ((onChannel_onChannel s c _ _).trans (onChannel_congr rfl))

theorem foundBad_fails {s : State} {c i : Nat} {r : FailReason} (result : badResult (s.channel c) i = .inl r) :
    foundBad c i s = failChannel c r (s.onChannel c (badChunk i id)) := by
  unfold foundBad
  rw [result]
  rfl

/-! ## The cut of a failing channel's operation (R137) -/

/-- Nothing of the channel's own is cut when there is none. -/
theorem cutOp_none {s : State} {c : Nat} (h : ∀ o, s.fetch.slot = some o → o.channel ≠ c ∨ o.ignored = true) : cutOp c s = s := by
  unfold cutOp
  split
  · rfl
  · rename_i o slot
    refine if_neg fun own => ?_
    rcases h o slot with other | ignored
    · exact other own.1
    · rw [own.2] at ignored; cases ignored

/-- The cut by where the operation stands. -/
theorem cutOp_own {s : State} {o : SlotOp} (slot : s.fetch.slot = some o) (own : o.ignored = false) : cutOp o.channel s =
    if o.chunk = none then ignoreSlot s
    else if s.fetchQueued = true then
      emptySlot .fault (s.onStore fun st => { st with queue := st.queue.filter fun q => q.source != .fetch })
    else if s.store.flash = .claiming then
      decisionPass (dropClaims .store (emptySlot .fault (s.onStore fun st => { st with flash := .idle, op := none })))
    else ignoreSlot (s.onStore fun st => { st with cut := true }) := by
  unfold cutOp
  rw [slot]
  exact if_pos ⟨rfl, own⟩

/-- The slot's outcome to be ignored. -/
theorem ignoreSlot_eq {s : State} {o : SlotOp} (slot : s.fetch.slot = some o) :
    ignoreSlot s = { s with fetch := { s.fetch with slot := some { o with ignored := true } } } := by
  simp [ignoreSlot, slot]

end Sys2Proof.Machine

namespace Sys2Proof.Claims

open Sys2Proof Sys2Proof.Machine

/-- Settles O35: the checks of FETCH_OPEN in order, and the opened channel. -/
theorem fetchOpenLoadsManifest : Obligations.FetchOpenLoadsManifest := by
  intro s r h b c kib window len base mark count fields apart
  have served {code : Code} (check : s.fetchOpenCheck b = some code) : runs .fetchOpen s (refusedWith .fetchOpen r code s) :=
    runs_refused h (by
      simp only [serve, serveFetchOpen]
      rw [show (took ReqKind.fetchOpen.stream s).fetchOpenCheck r.body = some code from check])
  have sizes : chunkSizes.contains (byteAt b 1) = true ∧ (manifestOf b).legal = true ↔ fields := by
    rw [manifestOf_legal_iff, List.contains_iff_mem]
    simp only [fields, and_assoc]
    exact ⟨fun ⟨size, low, high, rest⟩ => ⟨low, high, size, rest⟩, fun ⟨low, high, size, rest⟩ => ⟨size, low, high, rest⟩⟩
  have apart_iff : s.rangeTaken (manifestOf b) = false ↔ apart := rangeTaken_eq_false_iff s (manifestOf b)
  refine ⟨fun above => served (if_pos above), fun four used => served ?_, fun four free => ⟨fun bad => served ?_,
    fun good low => served ?_, fun good high taken => served ?_, fun good high clear => runs_answered h ?_⟩⟩
  all_goals
    have four' : ¬ 3 < byteAt b 0 := Nat.not_lt.2 four
  · exact (if_neg four').trans (if_pos used)
  all_goals
    have start : s.fetchOpenCheck b = if chunkSizes.contains (byteAt b 1) = false then some .range
        else if (manifestOf b).legal = false then some .range
        else if (manifestOf b).first < 8 then some .shielded
        else if s.rangeTaken (manifestOf b) then some .inUse else none := (if_neg four').trans (if_neg (Classical.not_not.2 free))
  · rw [start]
    by_cases size : chunkSizes.contains (byteAt b 1) = true
    · rw [if_neg (by rw [size]; decide), if_pos (Bool.eq_false_iff.2 fun legal => bad (sizes.1 ⟨size, legal⟩))]
    · rw [if_pos (Bool.eq_false_iff.2 size)]
  all_goals
    obtain ⟨size, legal⟩ := sizes.2 good
    rw [size, legal] at start
    simp only [Bool.true_eq_false, if_false] at start
  · exact start.trans (if_pos low)
  · exact start.trans ((if_neg (Nat.not_lt.2 high)).trans (if_pos (by
      rw [← Bool.not_eq_false]; exact mt apart_iff.1 taken)))
  · have accepted : s.fetchOpenCheck b = none := start.trans ((if_neg (Nat.not_lt.2 high)).trans (if_neg (by
      rw [apart_iff.2 clear]; decide)))
    simp only [serve, serveFetchOpen]
    rw [show (took ReqKind.fetchOpen.stream s).fetchOpenCheck r.body = none from accepted]
    rfl

end Sys2Proof.Claims
end

section
namespace Sys2Proof.Machine

open Sys2Proof Sys2Proof.Claims

/-- A closed channel holds no slab, and grants give it none. -/
theorem becomeClosed_pool (c : Nat) (s : State) (inside : c < s.fetch.channels.length) :
    ∀ h ∈ (becomeClosed c s).pool, h.ofChannel c = false := by
  let t : State := (freeChannel c s).onChannel c fun ch =>
    Channel.recordEvent { ch with state := .closed, manifest := none, chunks := [], refetch := [], eraseRetry := false } 3
  have closed : t.channel c = _ := channel_onChannel (freeChannel c s) c _ inside
  refine creditLoop_ofChannel _ (forcedTrigger .fetch t) c (fun armed => ?_) fun h hh => ?_
  · rw [show (forcedTrigger .fetch t).channel c = t.channel c by simp [State.channel], closed] at armed
    cases armed
  · rw [show (forcedTrigger .fetch t).pool = freeSlabs (Holder.ofChannel c) s.pool by simp [t, freeChannel, State.onChannel]] at hh
    obtain ⟨x, -, rfl⟩ := List.mem_map.1 hh
    split
    · rfl
    · rename_i other; exact Bool.eq_false_iff.2 other

/-- The channels after one becomes CLOSED. -/
theorem becomeClosed_channels (c : Nat) (s : State) : (becomeClosed c s).fetch.channels = s.fetch.channels.modify c fun ch =>
    { ch with state := .closed, manifest := none, chunks := [], refetch := [], eraseRetry := false, events := ch.events ||| 8 } := by
  rw [becomeClosed_eq, creditPoint, creditLoop_channels]
  simp

/-- An open radio port sends the bytes. -/
theorem radioSend_open {s : State} (awake : s.pow.state.awake = true) (bytes : List Byte) :
    radioSend bytes s = { s with lastRadio := bytes } := by
  rw [radioSend, show s.radioOpen = true from awake]
  rfl

/-- A closed radio port sends nothing. -/
theorem radioSend_closed {s : State} (asleep : s.pow.state.awake = false) (bytes : List Byte) :
    radioSend bytes s = { s with lastRadio := [] } := by
  rw [radioSend, show s.radioOpen = false from asleep]
  rfl

end Sys2Proof.Machine

namespace Sys2Proof.Claims

open Sys2Proof Sys2Proof.Machine

/-- Settles O36: the checks of FETCH_SUMS and FETCH_ARM in order. -/
theorem fetchSumsThenArm : Obligations.FetchSumsThenArm := by
  refine ⟨fun s r h => ⟨fun above => runs_refused h (if_pos above), fun four state => runs_refused h ?_⟩,
    fun s r m h four manifest loading => ?sums, fun s r h => ?arms⟩
  · exact (if_neg (Nat.not_lt.2 four)).trans (if_pos state)
  case sums =>
    intro sums first
    have served : serve .fetchSums r (took ReqKind.fetchSums.stream s) =
        if sums = [] ∨ 1024 < sums.length then respond r .length [] (took .fetch s)
        else if m.count < first + sums.length then respond r .range [] (took .fetch s)
        else respond r .ok [] ((took .fetch s).onChannel (byteAt r.body 0) fun ch =>
          { ch with manifest := some (putSums first sums m) }) := by
      refine (if_neg (Nat.not_lt.2 four)).trans ((if_neg (Classical.not_not.2 loading)).trans (ite_congr rfl (fun _ => rfl) fun _ => ?_))
      rw [show ((took ReqKind.fetchSums.stream s).channel (byteAt r.body 0)).manifest = some m from manifest]
      rfl
    refine ⟨fun long => runs_refused h (served.trans (if_pos long)), fun some' small past => runs_refused h ?_,
      fun some' small fits => runs_answered h ?_⟩
    all_goals
      have sized : ¬ (sums = [] ∨ 1024 < sums.length) := not_or.2 ⟨some', Nat.not_lt.2 small⟩
    · exact served.trans ((if_neg sized).trans (if_pos past))
    · exact served.trans ((if_neg sized).trans (if_neg (Nat.not_lt.2 fits)))
  case arms =>
    intro c
    refine ⟨fun above => runs_refused h (if_pos above), fun four state => runs_refused h ?_,
      fun four loading bare => runs_refused h ?_, fun four loading full => runs_served h ?_⟩
    all_goals have four' : ¬ 3 < c := Nat.not_lt.2 four
    · exact (if_neg four').trans (if_pos state)
    · exact (if_neg four').trans ((if_neg (Classical.not_not.2 loading)).trans (if_pos bare))
    · refine (if_neg four').trans ((if_neg (Classical.not_not.2 loading)).trans ((if_neg (by
        rw [show ((took ReqKind.fetchArm.stream s).channel c).allLoaded = true from full]; decide)).trans ?_))
      rw [respond_eq_replied h]
      rfl

/-- Settles O37: FETCH_CLOSE by the state, and what becoming CLOSED leaves. -/
theorem fetchCloseAndStatus : Obligations.FetchCloseAndStatus := by
  refine ⟨⟨fun s r h above => runs_refused h (if_pos above), fun s r h four => ?closes, fun s r h => ?status⟩,
    fun s c inside _ => ?closed, fun s c => ?checks⟩
  case closes =>
    intro c
    have served : serve .fetchClose r (took ReqKind.fetchClose.stream s) = match (s.channel c).state with
        | .closed => respond r .state [] (took .fetch s)
        | .loading | .finished | .failed => respond r .ok [] (becomeClosed c (took .fetch s))
        | .armed => respond r .ok [] (closeArmed c (took .fetch s))
        | .closing => respond r .ok [] (took .fetch s) := if_neg (Nat.not_lt.2 four)
    let closing : State := { took .fetch s with
      pool := s.pool.map fun h => if h = .credit c then .free else h,
      fetch := { s.fetch with channels := s.fetch.channels.modify c fun ch => { ch with state := .closing } } }
    have armed_eq (armed : (s.channel c).state = .armed) : serve .fetchClose r (took ReqKind.fetchClose.stream s) =
        respond r .ok [] (creditPoint (closingCheck c closing)) := by
      rw [served, armed]
      simp only [closeArmed, freeCredits, freeSlabs_eq]
      rfl
    have state (inside : c < s.fetch.channels.length) : (closing.channel c).state = .closing :=
      congrArg Channel.state (channel_onChannel s c (fun ch => { ch with state := .closing }) inside)
    refine ⟨fun closed => runs_refused h (by rw [served, closed]; rfl), fun closing => runs_answered h (by rw [served, closing]),
      fun ended => runs_answered h ?_, fun armed inside busy => runs_answered h ?_, fun armed inside unframed idle => runs_answered h ?_⟩
    · rcases ended with state | state | state <;> rw [served, state]
    · rw [armed_eq armed, closingCheck_waits (s := closing) (.inr busy)]
    · rw [armed_eq armed, closingCheck_closes (s := closing) (state inside) unframed idle]
  case status => exact ⟨fun above => runs_refused h (if_pos above), fun four => runs_answered h (if_neg (Nat.not_lt.2 four))⟩
  case closed =>
    intro t
    refine ⟨?_, becomeClosed_pool c s inside, fun d other => ?_, by simp [t], by simp [t], by simp [t]⟩
    · have record := channel_onChannel s c (fun ch => { ch with
        state := .closed, manifest := none, chunks := [], refetch := [], eraseRetry := false, events := ch.events ||| 8 }) inside
      unfold State.channel
      rw [becomeClosed_channels]
      exact record
    · have record := channel_onChannel_ne s c d (fun ch => { ch with
        state := .closed, manifest := none, chunks := [], refetch := [], eraseRetry := false, events := ch.events ||| 8 }) other
      unfold State.channel
      rw [becomeClosed_channels]
      exact record
  case checks =>
    intro framed operated
    refine ⟨fun closing unframed idle => closingCheck_closes closing (Bool.eq_false_iff.2 (mt (inReception_iff s c).1 unframed))
        (Bool.eq_false_iff.2 (mt (ownInFlight_iff s c).1 idle)),
      fun h => closingCheck_waits (h.imp_right (Or.imp (inReception_iff s c).2 (ownInFlight_iff s c).2)), rfl⟩

/-- Settles O38: the header's checks in order, with what each does. -/
theorem chunkHeaderChecks : Obligations.ChunkHeaderChecks := by
  refine ⟨fun s h closed => runs_of_effect (chunkHeader_ignored h closed), fun s h awake bare => ?_⟩
  intro c i ch bad bumped
  have judged {result : HeaderResult} (check : s.headerCheck h = result) {t : State}
      (done : headerNow h s = t) : runs (.chunkHeader h) s t :=
    runs_of_effect ((chunkHeader_judged h awake bare).trans done)
  have header {result : HeaderResult} (check : s.headerCheck h = result) : headerNow h s = match (generalizing := false) result with
      | .discarded => s
      | .noCredit => s.onChannel c fun ch => { ch with noCredit := bump ch.noCredit }
      | .outOfWindow => s.onChannel c fun ch => { ch with outOfWindow := bump ch.outOfWindow }
      | .duplicate => s.onChannel c fun ch => { ch with duplicate := bump ch.duplicate }
      | .wrongLength => foundBad c i { s with pool := passSlab (.credit c) .free s.pool }
      | .received =>
        creditPoint { s with pool := passSlab (.credit c) (.chunk c i) s.pool,
                             fetch := { s.fetch with
                               reception := some { channel := c, index := i, length := nat32At h 3 } } } := by
    rw [← check]
    rfl
  refine ⟨fun drop => ?_, fun good none => ?_, fun good credit out => ?_, fun good credit inside held => ?_,
    fun good credit inside free long => ?_, fun good credit inside free exact' => ?_⟩
  · have check : s.headerCheck h = .discarded := by
      unfold State.headerCheck
      simp only
      by_cases crc : crc16 (h.take 7) ≠ BitVec.ofNat 16 (nat16At h 7)
      · rw [if_pos crc]
      · rw [if_neg crc, if_pos (drop.resolve_left crc)]
    exact judged check (header check)
  all_goals have start := headerCheck_channel good
  · have check := start.trans (if_pos none)
    exact judged check (header check)
  all_goals replace start := start.trans (if_neg credit)
  · have check := start.trans (if_pos out)
    exact judged check (header check)
  all_goals replace start := start.trans (if_neg (by rw [show (s.channel (byteAt h 0)).inWindow (nat16At h 1) = true from inside]; decide))
  · have check : s.headerCheck h = .duplicate := by
      rw [start]
      rcases held with state | state | state <;>
        rw [show ((s.channel (byteAt h 0)).chunk (nat16At h 1)).state = _ from state]
    exact judged check (header check)
  all_goals
    have sized : s.headerCheck h = if nat32At h 3 = (s.channel (byteAt h 0)).expected (nat16At h 1) then .received else .wrongLength := by
      rw [start]
      rcases free with state | state <;> rw [show ((s.channel (byteAt h 0)).chunk (nat16At h 1)).state = _ from state]
  · have check := sized.trans (if_neg long)
    exact judged check (header check)
  · have check := sized.trans (if_pos exact')
    exact judged check (header check)

/-- Settles O39: a frame's end, a chunk found BAD, a failure, and its cut. -/
theorem chunkFrameEnds : Obligations.ChunkFrameEnds := by
  refine ⟨fun s f p framed => ?ends, fun s c i => ?found, fun s c r => ?fails, fun s c h => cutOp_none h, fun s o slot own => ?cuts⟩
  case ends =>
    intro u good
    have ended := frameEnd_eq p framed
    have good_iff : s.frameGood f p = true ↔ good := frameGood_iff s f p
    have closing : (s.channel f.channel).state ≠ .armed → effect (.chunkFrameEnd p) s = closingCheck f.channel u :=
      fun unarmed => ended.trans (if_neg unarmed)
    refine ⟨fun armed whole => runs_of_effect (ended.trans ((if_pos armed).trans (if_pos (good_iff.2 whole)))),
      fun armed bad => runs_of_effect (ended.trans ((if_pos armed).trans ((if_neg (mt good_iff.1 bad)).trans ?_))), ?_⟩
    · simp only [freeChunk, freeSlabs_eq]
      rfl
    · intro operated
      refine ⟨fun state idle => ?_, fun state busy => ?_, fun unarmed open' => ?_⟩
      · refine runs_of_effect ((closing (by rw [state]; decide)).trans (closingCheck_closes state rfl ?_))
        exact Bool.eq_false_iff.2 (mt (ownInFlight_iff u f.channel).1 idle)
      · exact runs_of_effect ((closing (by rw [state]; decide)).trans
          (closingCheck_waits (.inr (.inr ((ownInFlight_iff u f.channel).2 busy)))))
      · exact runs_of_effect ((closing unarmed).trans (closingCheck_waits (.inl open')))
  case found =>
    intro ch found
    refine ⟨fun third => foundBad_fails (if_pos (Nat.succ_le_succ third)), fun few listed => foundBad_lists id ?_,
      fun few unlisted full => foundBad_fails ?_, fun few unlisted room => foundBad_lists (fun l => l ++ [i]) ?_⟩
    all_goals have more : ¬ 3 ≤ (ch.chunk i).bad + 1 := Nat.not_le.2 (Nat.succ_lt_succ few)
    · exact (if_neg more).trans (if_pos (List.contains_iff_mem.2 listed))
    all_goals have new : ¬ ch.refetch.contains i = true := by rw [List.contains_iff_mem]; exact unlisted
    · exact (if_neg more).trans ((if_neg new).trans (if_pos full))
    · exact (if_neg more).trans ((if_neg new).trans (if_neg (Nat.not_le.2 room)))
  case fails =>
    intro mine
    refine congrArg schedulePoint (congrArg (cutOp c) (congrArg creditPoint (congrArg (forcedTrigger .fetch) ?_)))
    by_cases own : s.inReception c = true
    · exact (if_pos own).trans (by rw [show mine = true from own]; rfl)
    · exact (if_neg own).trans (by rw [show mine = false from Bool.eq_false_iff.2 own]; rfl)
  case cuts =>
    intro ignoring emptied queued
    have queued_iff : s.fetchQueued = true ↔ queued := by simp [State.fetchQueued, queued]
    refine ⟨fun erase => ?_, fun i program => ⟨fun waits => ?_, fun gone claiming => ?_, fun gone running => ?_⟩⟩
    all_goals rw [cutOp_own slot own]
    · exact (if_pos erase).trans (ignoreSlot_eq slot)
    all_goals
      have chunk : ¬ o.chunk = none := by rw [program]; exact Option.some_ne_none i
      rw [if_neg chunk]
    · rw [if_pos (queued_iff.2 waits), emptySlot_fault]
      rfl
    · rw [if_neg (mt queued_iff.1 gone), if_pos claiming, emptySlot_fault]
      rfl
    · rw [if_neg (mt queued_iff.1 gone), if_neg running]
      exact ignoreSlot_eq (s := s.onStore fun st => { st with cut := true }) slot

/-- Settles O40: the reads by the port's state, and the first byte of a transfer. -/
theorem radioReadsChangeNothing : Obligations.RadioReadsChangeNothing := by
  refine ⟨fun s => ⟨fun awake => ⟨runs_of_effect (radioSend_open awake _), fun c => runs_of_effect (radioSend_open awake _)⟩,
    fun asleep => ⟨runs_of_effect (radioSend_closed asleep _), fun c => runs_of_effect (radioSend_closed asleep _)⟩⟩,
    fun f rest => ?bytes, rfl, rfl⟩
  case bytes =>
    refine ⟨?_, ?_, fun h1 h2 => ?_, ?_, ?_, ?_, ?_, fun h1 h2 h3 => ?_⟩
    · rintro rfl; rfl
    · rintro rfl; rfl
    · exact (if_neg h1).trans (if_neg h2)
    · rintro rfl; rfl
    · rintro rfl; cases rest <;> rfl
    · rintro rfl long
      exact if_neg (Nat.not_lt.2 long)
    · rintro rfl short
      exact if_pos short
    · exact (if_neg h1).trans ((if_neg h2).trans (if_neg h3))

end Sys2Proof.Claims
end

section
namespace Sys2Proof.Machine

open Sys2Proof Sys2Proof.Claims

/-! ## Free values in the content (R133) -/

@[simp] theorem length_freeBytes (k n : Nat) : (freeBytes k n).length = n := by simp [freeBytes]

theorem getD_freeBytes (k : Nat) {n i : Nat} (h : i < n) : (freeBytes k n).getD i 0 = Config.freeByte (k + i) := by
  simp [freeBytes, List.getD_eq_getElem?_getD, h]

/-- Free values fill the range they are written to, and no other byte. -/
theorem memRead_freeBytes (m : Memory) (a k n : Nat) :
    (∀ i < n, memRead (memWrite m a (freeBytes k n)) (a + i) = Config.freeByte (k + i)) ∧
    ∀ x, x < a ∨ a + n ≤ x → memRead (memWrite m a (freeBytes k n)) x = memRead m x := by
  refine ⟨fun i hi => ?_, fun x hx => ?_⟩
  · rw [memRead_memWrite_inside _ _ _ _ (by simpa using hi), getD_freeBytes k hi]
  · exact memRead_memWrite_outside _ _ _ _ (by simpa using hx)

/-- A program cut short takes some of the bits that its data clears, in the page in hand alone. -/
theorem memRead_partly (m : Memory) (a k : Nat) (page : List Byte) :
    let kept := (freeBytes k page.length).zipWith (· ||| ·) page
    (∀ i < page.length, memRead (memProgram m a kept) (a + i) =
      memRead m (a + i) &&& (Config.freeByte (k + i) ||| page.getD i 0)) ∧
    ∀ x, x < a ∨ a + page.length ≤ x → memRead (memProgram m a kept) x = memRead m x := by
  intro kept
  have sized : kept.length = page.length := by simp [kept]
  refine ⟨fun i hi => ?_, fun x hx => ?_⟩
  · have byte : kept.getD i 0 = Config.freeByte (k + i) ||| page.getD i 0 := by
      simp [kept, freeBytes, List.getD_eq_getElem?_getD, hi]
    rw [memRead_memProgram_inside _ _ _ _ (by rw [sized]; exact hi), byte]
  · exact memRead_memProgram_outside _ _ _ _ (by rw [sized]; exact hx)

/-! ## Selection (R139, R140) -/

theorem selected_mem {s : State} {o : Op} (h : s.selected = some o) : o ∈ s.store.queue := by
  unfold State.selected at h
  split at h
  · rename_i first
    cases h
    exact List.mem_of_find?_eq_some first
  · exact List.mem_of_mem_head? h

/-- Selecting an operation shortens the queue. -/
theorem leaveQueue_shorter {s : State} {o : Op} (h : s.selected = some o) :
    (leaveQueue o.arrival s.store).queue.length < s.store.queue.length :=
  List.length_filter_lt_length_iff_exists.2 ⟨o, selected_mem h, by simp⟩

/-- Fuel above the queue's length gives one and the same selection. -/
theorem selectLoop_fuel (n m : Nat) (s : State) (hn : s.store.queue.length < n) (hm : s.store.queue.length < m) :
    selectLoop n s = selectLoop m s := by
  induction n generalizing m s with
  | zero => omega
  | succ n ih =>
    cases m with
    | zero => omega
    | succ m =>
      unfold selectLoop
      refine ite_congr rfl (fun _ => ?_) fun _ => rfl
      cases choice : s.selected with
      | none => rfl
      | some o =>
        have shorter := leaveQueue_shorter choice
        refine ite_congr rfl (fun _ => ih m _ ?_ ?_) (fun _ => rfl) <;> simp only [deliver_frame, State.onStore] <;> omega

/-- Nothing is selected while the store is not IDLE. -/
theorem selectPoint_busy {s : State} (h : s.store.flash ≠ .idle) : selectPoint s = s := if_neg h

/-- Nothing is selected from an empty queue. -/
theorem selectPoint_empty {s : State} (h : s.store.queue = []) : selectPoint s = s := by
  have none_selected : s.selected = none := by simp [State.selected, h]
  unfold selectPoint selectLoop
  simp only [none_selected, ite_self]

/-- A selected operation whose claim exceeds the limit ends LOW_SUPPLY, and the store selects again. -/
theorem selectPoint_low {s : State} {o : Op} (idle : s.store.flash = .idle) (choice : s.selected = some o)
    (low : s.sup.limit < s.claimOf o) :
    selectPoint s = selectPoint (deliver o .lowSupply [] (s.onStore (leaveQueue o.arrival))) := by
  have shorter := leaveQueue_shorter choice
  conv => lhs; unfold selectPoint selectLoop
  simp only [if_pos idle, choice, if_pos low]
  refine selectLoop_fuel _ _ _ ?_ ?_ <;> simp only [deliver_frame, State.onStore]
  · exact shorter
  · exact Nat.lt_succ_self _

/-- A selected operation whose claim is within the limit sends it. -/
theorem selectPoint_claims {s : State} {o : Op} (idle : s.store.flash = .idle) (choice : s.selected = some o)
    (fits : s.claimOf o ≤ s.sup.limit) : selectPoint s = sendStoreClaim o (s.onStore (leaveQueue o.arrival)) := by
  unfold selectPoint selectLoop
  simp only [if_pos idle, choice, if_neg (Nat.not_lt.2 fits)]

/-- An unblocked READ is selected first, the oldest of them; else the head of the queue. -/
theorem selected_spec {s : State} {o : Op} (h : s.selected = some o) :
    ((∃ p ∈ s.store.queue, s.servable p = true) →
      s.servable o = true ∧ ∃ older newer, s.store.queue = older ++ o :: newer ∧ ∀ p ∈ older, s.servable p = false) ∧
    ((∀ p ∈ s.store.queue, s.servable p = false) → s.store.queue.head? = some o) := by
  unfold State.selected at h
  cases first : s.store.queue.find? s.servable with
  | none =>
    rw [first] at h
    exact ⟨fun ⟨p, hp, serves⟩ => absurd serves (List.find?_eq_none.1 first p hp), fun _ => h⟩
  | some q =>
    rw [first] at h
    cases h
    have serves := List.find?_some first
    obtain ⟨-, older, newer, split, blocked⟩ := List.find?_eq_some_iff_append.1 first
    exact ⟨fun _ => ⟨serves, older, newer, split, fun p hp => by simpa using blocked p hp⟩,
      fun all => absurd serves (by rw [all o (List.mem_of_find?_eq_some first)]; decide)⟩

/-! ## The suspend test (R142) -/

theorem suspendable_iff (s : State) : s.suspendable = true ↔
    (s.store.flash = .running ∧ ∃ o sec, s.store.op = some o ∧ o.kind = .erase sec) ∧
    (∃ p ∈ s.store.queue, s.servable p = true) ∧
    s.settingNat .eraseMinRunUs ≤ s.now - s.store.since ∧ s.store.suspends < s.settingNat .suspendLimit := by
  rw [State.suspendable]
  simp only [Bool.and_eq_true, beq_iff_eq, decide_eq_true_eq, List.any_eq_true, and_assoc]
  refine and_congr_right' (and_congr ?_ Iff.rfl)
  cases s.store.op with
  | none => simp
  | some o => cases kind : o.kind <;> simp [kind]

/-! ## Outcomes and ends (R141) -/

/-- What follows an outcome, by the operation's source. -/
theorem afterOutcome_deliver (o : Op) (e : OpEnd) (bytes : List Byte) (s : State) :
    afterOutcome o (deliver o e bytes s) = reported o.source e bytes s := by
  unfold afterOutcome deliver reported
  cases o.source <;> rfl

/-- The flash without its operation, before the grant's release is judged. -/
def State.cleared (f : FlashState) (s : State) : State :=
  { s with store := { s.store with
      flash := f, op := none, grant := none, page := 0, cut := false, suspends := 0, ran := 0, since := s.now } }

theorem clearOp_eq (f : FlashState) (s : State) :
    clearOp f s = if s.store.grant = none then s.cleared f else decisionPass (s.cleared f) := by
  unfold clearOp
  cases s.store.grant <;> rfl

theorem endOp_eq (o : Op) (e : OpEnd) (bytes : List Byte) (s : State) :
    endOp o e bytes s = reported o.source e bytes
      (if s.store.grant = none then s.cleared .idle else decisionPass (s.cleared .idle)) := by
  rw [← clearOp_eq]
  exact afterOutcome_deliver ..

theorem endTimeout_eq (o : Op) (s : State) : endTimeout o s = reported o.source .timeout []
    { clearOp .resetting s with store := { (clearOp .resetting s).store with commanded := s.now } } :=
  afterOutcome_deliver ..

end Sys2Proof.Machine

namespace Sys2Proof.Claims

open Sys2Proof Sys2Proof.Machine

/-- Settles O41: by the read laws of a write, a program and an erase. -/
theorem programAndsEraseSets : Obligations.ProgramAndsEraseSets := by
  refine ⟨fun m a bs x _ => ⟨fun i hi => memRead_memProgram_inside m a bs i hi, fun out => memRead_memProgram_outside m a bs x out,
    fun n low high => memRead_memErase_inside m a n x ⟨low, high⟩, fun n out => memRead_memErase_outside m a n x out⟩,
    fun s src arr => ⟨fun a n => ⟨rfl, rfl⟩, fun sec => ?erases, fun a d => ?programs⟩⟩
  case erases =>
    obtain ⟨inside, outside⟩ := memRead_freeBytes s.content (sec * 131072) s.fresh 131072
    refine ⟨_, rfl, rfl, inside, fun x hx => outside x ?_⟩
    rwa [Nat.succ_mul] at hx
  case programs =>
    let first := a + s.store.page * 4096
    let page := (d.drop (s.store.page * 4096)).take 4096
    obtain ⟨cut_in, cut_out⟩ := memRead_partly s.content first s.fresh page
    obtain ⟨free_in, free_out⟩ := memRead_freeBytes s.content first s.fresh page.length
    exact ⟨_, _, rfl, rfl, fun i hi => ⟨cut_in i hi, free_in i hi⟩, fun x hx => ⟨cut_out x hx, free_out x hx⟩⟩

/-- Settles O42: the checks of the three requests in order. -/
theorem storeRequestsJoinQueue : Obligations.StoreRequestsJoinQueue := by
  have joins {s : State} {k : ReqKind} {r : Request} (o : OpKind) (h : s.taken k = some r) (stream : k.stream = .store)
      (served : serve k r (took k.stream s) = joinOrFault r o (took k.stream s)) :
      runs (commandOf k) s (if s.store.flash = .offline then refusedWith k r .fault s else hostJoins r o (took .store s)) := by
    by_cases offline : s.store.flash = .offline
    · rw [if_pos offline]
      exact runs_refused h (served.trans (if_pos offline))
    · rw [if_neg offline]
      refine runs_served h (served.trans ((if_neg offline).trans ?_))
      rw [stream]
  refine ⟨fun s r h => ?read, fun s r h => ?program, fun s r h => ?erase⟩
  case read =>
    intro a n legal
    have illegal_iff : (n < 1 ∨ 4096 < n ∨ Config.storeBytes < a + n) ↔ ¬ legal := by
      simp only [legal, Config.storeBytes]
      omega
    refine ⟨fun bad => runs_refused h (if_pos (illegal_iff.2 bad)), fun good offline => ?_, fun good online => ?_⟩
    all_goals have run := joins (.read a n) h rfl (if_neg fun bad => illegal_iff.1 bad good)
    · rwa [if_pos offline] at run
    · rwa [if_neg online] at run
  case program =>
    intro a d sized placed
    have check_eq : s.programCheck a d.length = if ¬ sized then some .length else if ¬ placed then some .range
        else if s.store.bootProtected = true ∧ a < 1048576 then some .shielded
        else if s.sectorInUse (a / 131072) = true then some .inUse else none := by
      refine ite_congr (propext ?_) (fun _ => rfl) fun _ => ite_congr (propext ?_) (fun _ => rfl) fun _ => rfl
      · simp only [sized]; omega
      · simp only [placed, Config.storeBytes, Config.pageBytes]; omega
    have refuses {c : Code} (check : s.programCheck a d.length = some c) :
        runs .storeProgram s (refusedWith .storeProgram r c s) :=
      runs_refused h (by
        simp only [serve, serveStoreProgram]
        rw [show (took ReqKind.storeProgram.stream s).programCheck (nat32At r.body 0) (r.body.drop 4).length = some c from check])
    refine ⟨fun bad => refuses (check_eq.trans (if_pos bad)), fun good off => refuses (check_eq.trans ?_),
      fun good place guarded low => refuses (check_eq.trans ?_), fun good place high used => refuses ?_,
      fun good place high unused => joins (.program a d) h rfl ?_⟩
    · exact (if_neg (Classical.not_not.2 good)).trans (if_pos off)
    · exact (if_neg (Classical.not_not.2 good)).trans ((if_neg (Classical.not_not.2 place)).trans (if_pos ⟨guarded, low⟩))
    all_goals
      have open' : ¬ (s.store.bootProtected = true ∧ a < 1048576) := fun ⟨guarded, low⟩ =>
        high.elim (fun bare => by rw [bare] at guarded; cases guarded) fun up => Nat.not_le.2 low up
      replace check_eq := check_eq.trans ((if_neg (Classical.not_not.2 good)).trans ((if_neg (Classical.not_not.2 place)).trans (if_neg open')))
    · exact check_eq.trans (if_pos used)
    · have check : s.programCheck a d.length = none := check_eq.trans (if_neg (by rw [unused]; decide))
      simp only [serve, serveStoreProgram]
      rw [show (took ReqKind.storeProgram.stream s).programCheck (nat32At r.body 0) (r.body.drop 4).length = none from check]
  case erase =>
    intro sec
    have refuses {c : Code} (check : s.eraseCheck sec = some c) : runs .storeErase s (refusedWith .storeErase r c s) :=
      runs_refused h (by
        simp only [serve, serveStoreErase]
        rw [show (took ReqKind.storeErase.stream s).eraseCheck (nat16At r.body 0) = some c from check])
    refine ⟨fun above => refuses (if_pos above), fun inside guarded low => refuses ?_, fun inside high used => refuses ?_,
      fun inside high unused => joins (.erase sec) h rfl ?_⟩
    all_goals have below : ¬ 4095 < sec := Nat.not_lt.2 inside
    · exact (if_neg below).trans (if_pos ⟨guarded, low⟩)
    all_goals
      have open' : ¬ (s.store.bootProtected = true ∧ sec < 8) := fun ⟨guarded, low⟩ =>
        high.elim (fun bare => by rw [bare] at guarded; cases guarded) fun up => Nat.not_le.2 low up
    · exact (if_neg below).trans ((if_neg open').trans (if_pos used))
    · have check : s.eraseCheck sec = none :=
        (if_neg below).trans ((if_neg open').trans (if_neg (by rw [unused]; decide)))
      simp only [serve, serveStoreErase]
      rw [show (took ReqKind.storeErase.stream s).eraseCheck (nat16At r.body 0) = none from check]

/-- Settles O43: joining, the choice of the queue, and a selection point. -/
theorem storeQueueOrder : Obligations.StoreQueueOrder := by
  refine ⟨fun s r k => ?joins, fun s o choice => ⟨selected_mem choice, selected_spec choice⟩, fun s => ?selects⟩
  case joins =>
    intro joined reads erasing passes
    classical
    have suspendable : joined.suspendable = true ↔ erasing ∧ passes := suspendable_iff joined
    have test : joinTest k joined = if reads ∧ erasing ∧ passes then { joined with store := { joined.store with
        flash := .suspending, suspends := s.store.suspends + 1, commanded := s.now } } else joined := by
      cases k with
      | read a n =>
        exact ite_congr (propext (suspendable.trans ⟨fun h => ⟨⟨a, n, rfl⟩, h⟩, And.right⟩)) (fun _ => rfl) fun _ => rfl
      | program a d => exact (if_neg fun h => by obtain ⟨⟨_, _, read⟩, -⟩ := h; cases read).symm
      | erase sec => exact (if_neg fun h => by obtain ⟨⟨_, _, read⟩, -⟩ := h; cases read).symm
    refine ⟨fun idle => congrArg selectPoint (test.trans (if_neg fun h => ?_)),
      fun busy fails => (congrArg selectPoint (test.trans (if_neg fails))).trans (selectPoint_busy busy),
      fun read erase pass => (congrArg selectPoint (test.trans (if_pos ⟨read, erase, pass⟩))).trans (selectPoint_busy ?_)⟩
    · obtain ⟨-, ⟨running, -⟩, -⟩ := h
      rw [idle] at running
      cases running
    · intro idle; cases idle
  case selects =>
    refine ⟨fun h => h.elim selectPoint_busy selectPoint_empty, fun o idle choice => ?_⟩
    intro claim left ended
    refine ⟨fun low => ⟨fun r host => ?_, fun fetch => ?_⟩, fun fits => selectPoint_claims idle choice fits⟩
    all_goals
      refine (selectPoint_low idle choice low).trans (congrArg selectPoint ?_)
      unfold deliver
    · rw [host]; rfl
    · rw [fetch]; rfl

/-- Settles O44: each report of the flash by the operation at it. -/
theorem flashReportsEndOk : Obligations.FlashReportsEndOk := by
  intro s src arr bytes idle unknown
  refine ⟨fun a n running op => ⟨fun other => ?_, fun boot => ?_⟩, fun a d running op => ?pages, fun sec working op => ?erases,
    fun r a n rest suspended batch => ?batch⟩
  · refine runs_of_effect (show flashReadNow s = _ from ?_)
    unfold flashReadNow
    rw [running, op]
    exact (if_neg other).trans (endOp_eq ..)
  · refine runs_of_effect (show flashReadNow s = _ from ?_)
    unfold flashReadNow
    rw [running, op]
    exact (if_pos boot).trans (congrArg _ (clearOp_eq ..))
  case pages =>
    intro page piece done
    have paged : flashPageNow s = if (lastPage page d || s.store.cut) = true then
        endOp ⟨src, .program a d, arr⟩ .ok [] done else
        { done with store := { s.store with page := page + 1, ran := 0, since := s.now } } := by
      unfold flashPageNow
      rw [running, op]
      rfl
    have last_iff : (lastPage page d || s.store.cut) = true ↔ d.length ≤ (page + 1) * 4096 ∨ s.store.cut = true := by
      simp only [lastPage, Bool.or_eq_true, decide_eq_true_eq]
      rfl
    refine ⟨fun more uncut => runs_of_effect (paged.trans (if_neg fun last => ?_)),
      fun last => runs_of_effect (paged.trans ((if_pos (last_iff.2 last)).trans (endOp_eq ..))), runs_of_effect ?_⟩
    · rcases last_iff.1 last with short | cut
      · omega
      · rw [uncut] at cut; cases cut
    · show flashFailureNow s = _
      unfold flashFailureNow
      rw [op]
      exact (if_pos ⟨rfl, by rw [running]; rfl⟩).trans (endOp_eq ..)
  case erases =>
    have erasing : s.store.flash.erasing = true := by rcases working with flash | flash <;> rw [flash] <;> rfl
    refine ⟨runs_of_effect (show flashEraseNow s = _ from ?_), runs_of_effect (show flashFailureNow s = _ from ?_)⟩
    · unfold flashEraseNow
      rw [op]
      exact (if_pos erasing).trans (endOp_eq ..)
    · unfold flashFailureNow
      rw [op]
      exact (if_pos ⟨rfl, erasing⟩).trans (endOp_eq ..)
  case batch =>
    intro served
    have read : flashReadNow s = resumeIfDone served := by
      unfold flashReadNow
      rw [suspended, batch]
      simp only [batchReadEnds, State.onStore, batch, List.tail_cons]
      rfl
    have left : served.store.batch = rest := by simp [served]
    refine ⟨fun more => runs_of_effect (read.trans (if_neg ?_)), fun done => runs_of_effect (read.trans ((if_pos ?_).trans ?_))⟩
    · simpa [left] using more
    · simpa [left] using done
    · have since : served.store.since = served.now := by simp [served]
      simp only [State.onStore, ← since]

end Sys2Proof.Claims
end

section
namespace Sys2Proof.Machine

open Sys2Proof Sys2Proof.Claims

/-! ## READs that go back to the queue (R144, log 15) -/

theorem insertOp_perm (o : Op) (q : List Op) : (insertOp o q).Perm (o :: q) := by
  induction q with
  | nil => exact .refl _
  | cons p q ih =>
    unfold insertOp
    split
    · exact .refl _
    · exact (ih.cons p).trans (.swap o p q)

/-- An operation put back keeps the order of arrival. -/
theorem insertOp_ordered (o : Op) {q : List Op} (h : q.Pairwise fun a b => a.arrival ≤ b.arrival) :
    (insertOp o q).Pairwise fun a b => a.arrival ≤ b.arrival := by
  induction q with
  | nil => exact List.pairwise_singleton _ _
  | cons p q ih =>
    obtain ⟨first, rest⟩ := List.pairwise_cons.1 h
    unfold insertOp
    split
    · rename_i before
      refine List.pairwise_cons.2 ⟨fun x hx => ?_, h⟩
      rcases List.mem_cons.1 hx with rfl | hx
      · exact Nat.le_of_lt before
      · exact Nat.le_trans (Nat.le_of_lt before) (first x hx)
    · rename_i after
      refine List.pairwise_cons.2 ⟨fun x hx => ?_, ih rest⟩
      rcases List.mem_cons.1 ((insertOp_perm o q).mem_iff.1 hx) with rfl | hx
      · exact Nat.le_of_not_lt after
      · exact first x hx

theorem foldr_insertOp_perm (back q : List Op) : (back.foldr insertOp q).Perm (back ++ q) := by
  induction back with
  | nil => exact .refl _
  | cons o back ih => exact (insertOp_perm o _).trans (ih.cons o)

theorem foldr_insertOp_ordered (back : List Op) {q : List Op} (h : q.Pairwise fun a b => a.arrival ≤ b.arrival) :
    (back.foldr insertOp q).Pairwise fun a b => a.arrival ≤ b.arrival := by
  induction back with
  | nil => exact h
  | cons o back ih => exact insertOp_ordered o ih

/-! ## Resets of the flash (R144, R145, R161) -/

theorem bootReset_rests {s : State} (h : ∀ b, s.pow.boot = some b → b.failing = false) : bootReset s = s := by
  refine if_neg ?_
  unfold State.bootFailing
  cases boot : s.pow.boot with
  | none => decide
  | some b => simp [h b boot]

theorem bootReset_fails {s : State} {b : Boot} (boot : s.pow.boot = some b) (failing : b.failing = true) :
    bootReset s = bootFails s := by
  refine if_pos ?_
  unfold State.bootFailing
  rw [boot]
  exact failing

/-! ## The suspend test when time has come (R142) -/

theorem suspendTest_passes {s : State} {o : Op} {sec : Nat} (running : s.store.flash = .running) (op : s.store.op = some o)
    (erase : o.kind = .erase sec) (reads : ∃ p ∈ s.store.queue, s.servable p = true)
    (time : s.settingNat .eraseMinRunUs ≤ s.now - s.store.since) (spare : s.store.suspends < s.settingNat .suspendLimit) :
    suspendTest s = { s with store := { s.store with
      flash := .suspending, suspends := s.store.suspends + 1, commanded := s.now } } :=
  if_pos ((suspendable_iff s).2 ⟨⟨running, o, sec, op, erase⟩, reads, time, spare⟩)

theorem suspendTest_fails {s : State} (h : (∀ p ∈ s.store.queue, s.servable p = false) ∨
    s.settingNat .suspendLimit ≤ s.store.suspends) : suspendTest s = s := by
  refine if_neg fun pass => ?_
  obtain ⟨-, ⟨p, hp, serves⟩, -, spare⟩ := (suspendable_iff s).1 pass
  rcases h with blocked | spent
  · rw [blocked p hp] at serves; cases serves
  · exact Nat.not_lt.2 spent spare

end Sys2Proof.Machine

namespace Sys2Proof.Claims

open Sys2Proof Sys2Proof.Machine

/-- Settles O45: overruns, unanswered suspends, and the resets of the flash they lead to. -/
theorem overrunResetsFlash : Obligations.OverrunResetsFlash := by
  refine ⟨⟨fun s o working op other => ?overruns, fun s o suspending op => ?silent, fun s resetting bare => ?resets,
    fun s a n arr b running free op boot => ?boots⟩, fun s resetting => ?ends,
    fun s erase src k arr rest suspended op batch => ?batches⟩
  case overruns =>
    intro due u
    refine runs_of_effect (show overrunNow s = _ from ?_)
    have overran : overrunNow s = overrunOp o s := by
      unfold overrunNow
      rcases working with flash | flash <;> rw [flash, op]
    refine overran.trans ((if_neg other).trans ((endTimeout_eq ..).trans ?_))
    rw [show (timeoutContent o (s.upTo (s.overrunAt o.kind))).now = max s.now due by simp; rfl]
    rfl
  case silent =>
    intro due u
    refine runs_of_effect (show noAnswerNow s = _ from ?_)
    unfold noAnswerNow
    rw [suspending, op]
    refine (endTimeout_eq ..).trans ?_
    rw [show (timeoutContent o (s.upTo (s.store.commanded + 100))).now = max s.now due by simp; rfl]
    rfl
  case resets =>
    have done : flashResetNow s = bootReset (selectPoint { s with store := { s.store with flash := .idle } }) := by
      refine (if_pos resetting).trans ?_
      rw [resetOver, bare]
      rfl
    refine ⟨fun sound => runs_of_effect (done.trans (bootReset_rests (by simpa using sound))),
      fun b boot failing empty => ⟨runs_of_effect (done.trans ?_), fun slot unarmed => runs_of_effect ?_⟩⟩
    · rw [selectPoint_empty (s := { s with store := { s.store with flash := .idle } }) empty]
      exact bootReset_fails boot failing
    · let late := s.upTo (s.store.commanded + 1000)
      let offline : State := { late with store := { s.store with flash := .offline } }
      have gone : goOffline late = offline := by
        have faulted : faultQueue (resetOver .offline late) = { offline with store := { offline.store with queue := [] } } := by
          rw [resetOver, show late.store.op = none from bare]
          unfold faultQueue State.onStore
          rw [show late.store.queue = [] from empty]
          rfl
        rw [goOffline, faulted]
        refine (schedulePoint_unarmed { offline with store := { offline.store with queue := [] } } unarmed rfl).trans ?_
        simp only [offline, ← empty]
      refine (show effect .flashResetTimeout s = bootReset (goOffline late) from if_pos resetting).trans ?_
      rw [gone]
      exact bootReset_fails boot failing
  case boots =>
    intro due
    let o : Op := ⟨.boot, .read a n, arr⟩
    let reset : State := { s with
      now := max s.now due,
      store := { s.store with flash := .resetting, op := none, grant := none, page := 0, cut := false, suspends := 0, ran := 0,
                              since := max s.now due, commanded := max s.now due } }
    have overran : effect .runningTimeOverrun s = onBoot (fun b => { b with failing := true }) (endTimeout o (s.upTo due)) := by
      show overrunNow s = _
      unfold overrunNow
      rw [running, op]
      rfl
    have timed : endTimeout o (s.upTo due) = reset := by
      rw [endTimeout_eq, clearOp_eq, if_pos (show (s.upTo due).store.grant = none from free)]
      exact selectPoint_busy (s := reset) (by intro idle; cases idle)
    refine runs_of_effect (overran.trans ?_)
    rw [timed]
    simp only [reset, onBoot, State.onPow, boot, Option.map_some, free]
  case ends =>
    intro faulted late ended
    have faulted_eq (o : Op) (u : State) : faulted o.source u = deliver o .fault [] u := rfl
    refine ⟨fun o op => runs_of_effect ((if_pos resetting).trans ?_), fun sound => ⟨fun bare => ?_, fun o op => ?_⟩⟩
    · rw [op, resetOver, op]
      exact afterOutcome_deliver ..
    all_goals
      refine runs_of_effect ((show effect .flashResetTimeout s = bootReset (goOffline late) from if_pos resetting).trans
        ((bootReset_rests (by simpa [late] using sound)).trans ?_))
      unfold goOffline resetOver
    · rw [show late.store.op = none from bare]
      rfl
    · rw [show late.store.op = some o from op]
      rfl
  case batches =>
    intro due
    refine ⟨rest.foldr insertOp s.store.queue, foldr_insertOp_perm .., foldr_insertOp_ordered rest, ?_⟩
    intro back told u
    refine runs_of_effect (show overrunNow s = _ from ?_)
    have told_eq : deliver ⟨src, k, arr⟩ .timeout [] back = told := rfl
    have overran : overrunNow s = endTimeout erase (timeoutContent erase told) := by
      unfold overrunNow
      rw [suspended, op, batch, ← told_eq]
      simp only [batchOverrun, returnBatch, State.onStore, State.upTo, batch, List.tail_cons]
      rfl
    refine overran.trans ((endTimeout_eq ..).trans ?_)
    rw [show (timeoutContent erase told).now = due by rw [← told_eq]; simp; rfl]

/-- Settles O46: the suspend test at its point, and the batch fixed at the flash's report. -/
theorem eraseSuspends : Obligations.EraseSuspends := by
  refine ⟨fun s src sec arr running op => ?_, fun s p suspending hp serves => ?_, fun s suspending blocked => ?_⟩
  · intro now u
    have test : effect .minRunPoint s = suspendTest u := by
      show minRunNow s = _
      unfold minRunNow
      rw [running, op]
      rfl
    have time : s.settingNat .eraseMinRunUs ≤ now - s.store.since := Nat.le_sub_of_add_le' (Nat.le_max_right ..)
    exact ⟨fun reads spare => runs_of_effect
        (test.trans (suspendTest_passes (o := ⟨src, .erase sec, arr⟩) running op rfl reads time spare)),
      fun h => runs_of_effect (test.trans (suspendTest_fails h))⟩
  · have more : ¬ (s.store.queue.filter s.servable).isEmpty = true := by
      simp only [List.isEmpty_iff]
      exact List.ne_nil_of_mem (List.mem_filter.2 ⟨hp, serves⟩)
    exact runs_of_effect ((if_pos suspending).trans (if_neg more))
  · have none_serves : s.store.queue.filter s.servable = [] := List.filter_eq_nil_iff.2 fun p hp => by simp [blocked p hp]
    have all_stay : (s.store.queue.filter fun o => !s.servable o) = s.store.queue :=
      List.filter_eq_self.2 fun p hp => by simp [blocked p hp]
    refine runs_of_effect ((if_pos suspending).trans ?_)
    unfold suspendNow resumeIfDone State.onStore
    simp only [none_serves, all_stay]
    rfl

end Sys2Proof.Claims
end

section
namespace Sys2Proof.Machine

open Sys2Proof Sys2Proof.Claims

/-! ## The outbound queue after a record (R169, R170) -/

/-- The outbound queue of one state stands at the head of the other's. -/
def State.outGrows (s t : State) : Prop := ∃ tail, t.link.out = s.link.out ++ tail

theorem State.outGrows.trans {s t u : State} (h : s.outGrows t) (k : t.outGrows u) : s.outGrows u := by
  obtain ⟨a, ha⟩ := h
  obtain ⟨b, hb⟩ := k
  exact ⟨a ++ b, by rw [hb, ha, List.append_assoc]⟩

theorem trigger_outGrows (k : NoticeKind) (s : State) : s.outGrows (trigger k s) := by
  unfold trigger
  split
  · exact ⟨[], (List.append_nil _).symm⟩
  · exact ⟨_, rfl⟩

theorem recordLight_outGrows (k : Nat) (s : State) : s.outGrows (recordLight k s) :=
  trigger_outGrows .light { s with light := { s.light with events := setEvent s.light.events k } }

theorem judgeLight_outGrows (s : State) : s.outGrows (judgeLight s) := by
  unfold judgeLight
  simp only
  split
  · exact trigger_outGrows .light _
  · split
    · exact trigger_outGrows .light _
    · exact ⟨[], (List.append_nil _).symm⟩

theorem targetsChanged_outGrows (s : State) : s.outGrows (targetsChanged s) := by
  unfold targetsChanged
  repeat' split
  · exact judgeLight_outGrows _
  · exact judgeLight_outGrows s
  · exact judgeLight_outGrows s
  · exact State.outGrows.trans (judgeLight_outGrows (s.onLight fun l => { l with ramp := none })) (recordLight_outGrows 0 _)

theorem lightDrainStart_outGrows (s : State) : s.outGrows (lightDrainStart s) := by
  unfold lightDrainStart
  split
  · exact targetsChanged_outGrows _
  · exact ⟨[], (List.append_nil _).symm⟩

/-- What the start of a drain makes of the light's targets and timers (R97). -/
theorem lightDrainStart_light (s : State) : (lightDrainStart s).light.levelTarget = 0 ∧
    (lightDrainStart s).light.settle = none ∧ (lightDrainStart s).light.step = none ∧
    (lightDrainStart s).light.follow = s.light.follow ∧ (lightDrainStart s).light.warmthTarget = s.light.warmthTarget ∧
    (lightDrainStart s).light.drainLevel = if 0 < s.light.levelTarget then some s.light.levelTarget else s.light.drainLevel := by
  unfold lightDrainStart
  by_cases up : 0 < s.light.levelTarget
  · simp [up]
  · simp [State.onLight, Nat.eq_zero_of_not_pos up]

/-! ## Wake sources (R154) -/

section

variable {s : State} {w : WakeSource}

theorem wakeSource_begins (asleep : s.pow.exit = none) : wakeSource w s = { s with pow := { s.pow with
    waking := [w], lastWake := some w, wakeTimer := none, exit := some (s.now + 1000) } } := by
  unfold wakeSource
  rw [asleep]
  rfl

theorem wakeSource_joins (exits : s.pow.exit ≠ none) (wakes : s.pow.waking ≠ []) (new : w ∉ s.pow.waking) :
    wakeSource w s = { s with pow := { s.pow with waking := s.pow.waking ++ [w] } } := by
  obtain ⟨due, exit⟩ := Option.ne_none_iff_exists'.1 exits
  unfold wakeSource
  rw [exit]
  refine if_neg ?_
  rintro (bare | noted)
  · exact wakes bare
  · exact new (List.contains_iff_mem.1 noted)

theorem wakeSource_stays (exits : s.pow.exit ≠ none) (h : s.pow.waking = [] ∨ w ∈ s.pow.waking) : wakeSource w s = s := by
  obtain ⟨due, exit⟩ := Option.ne_none_iff_exists'.1 exits
  unfold wakeSource
  rw [exit]
  exact if_pos (h.imp_right List.contains_iff_mem.2)

/-- A transfer that finds HOST among a wake's sources is marked, and no other. -/
theorem transferBegins_eq {m : Bool} (h : (s.pow.state = .sleep ∧ .host ∈ s.pow.waking) ↔ m = true) :
    transferBegins s = { s with link := { s.link with wakeTransfer := m } } := by
  have mark : (s.pow.state == .sleep && s.pow.waking.contains .host) = m := by
    rw [Bool.eq_iff_iff, ← h, Bool.and_eq_true, beq_iff_eq, List.contains_iff_mem]
  rw [transferBegins, mark]

end

/-! ## The return from a drain (R97, R153) -/

theorem restoreLight_none {s : State} (h : s.light.drainLevel = none) : restoreLight s = s := by
  unfold restoreLight
  rw [h]

theorem restoreLight_some {s : State} {level : Nat} (h : s.light.drainLevel = some level) : restoreLight s =
    targetsChanged { s with light := { s.light with levelTarget := level, drainLevel := none } } := by
  unfold restoreLight
  rw [h]
  rfl

/-- An abandoned conversion's flag is set again. -/
theorem converterOff_eq (c : Converter) :
    let cut (d : Chan) : Bool := match c.busy with
      | some (e, _) => e == d
      | none => false
    c.off = { c with temp := c.temp || cut .temp, batt := c.batt || cut .batt, amb := c.amb || cut .amb,
                     busy := none, powered := false } := by
  intro cut
  unfold Converter.off
  cases busy : c.busy with
  | none => simp [cut, busy]
  | some e =>
    obtain ⟨d, due⟩ := e
    cases d <;> simp [cut, busy, Converter.setFlag]

end Sys2Proof.Machine

namespace Sys2Proof.Claims

open Sys2Proof Sys2Proof.Machine

/-- Settles O47: DOZE and WAKE by the power state. -/
theorem dozeAndWake : Obligations.DozeAndWake := by
  refine ⟨fun s r h => ⟨fun state => runs_answered h ?_, fun state => runs_answered h ?_, fun state => runs_refused h ?_⟩,
    fun s r h => ⟨fun state => runs_answered h ?_, fun state => runs_answered h ?_, fun state => runs_answered h ?_⟩⟩
  · simp only [serve, serveDoze]
    rw [show (took ReqKind.doze.stream s).pow.state = .active from state]
    rfl
  · simp only [serve, serveDoze]
    rw [show (took ReqKind.doze.stream s).pow.state = .doze from state]
    rfl
  · simp only [serve, serveDoze]
    rw [show (took ReqKind.doze.stream s).pow.state = .draining from state]
  all_goals
    refine congrArg (respond r .ok []) ?_
    unfold hostArrives
  · rw [show (took ReqKind.wake.stream s).pow.state = .active from state]
    rfl
  · rw [show (took ReqKind.wake.stream s).pow.state = .doze from state]
    rfl
  · rw [show (took ReqKind.wake.stream s).pow.state = .draining from state]
    rfl

/-- Settles O48: the checks of SLEEP, and the drain that begins. -/
theorem sleepBeginsDrain : Obligations.SleepBeginsDrain := by
  intro s r h sec legal
  have illegal_iff : (86400 < nat32At r.body 0 ∨ 1 < byteAt r.body 4) ↔ ¬ legal := by simp only [legal, sec]; omega
  refine ⟨fun bad => runs_refused h (if_pos (illegal_iff.2 bad)), fun good draining => runs_refused h ?_, fun good awake => ?_⟩
  all_goals have good' := mt illegal_iff.1 (Classical.not_not.2 good)
  · refine (if_neg good').trans ?_
    rw [show (took ReqKind.sleep.stream s).pow.state = .draining from draining]
  · let told := replied .sleep r .ok [] (took ReqKind.sleep.stream s)
    let begun := told.onPow fun p => { p with
      state := .draining, prior := some p.state, order := some (sec, byteAt r.body 4 == 1), resleepPending := false,
      resleep := none, drain := told.inMs (told.settingNat .drainTimeoutMs) }
    have served : serve .sleep r (took ReqKind.sleep.stream s) = withdrawCredits (lightDrainStart begun) := by
      refine (if_neg good').trans ?_
      rw [respond_eq_replied h]
      rcases awake with state | state <;> rw [show (took ReqKind.sleep.stream s).pow.state = _ from state] <;> rfl
    obtain ⟨tail, out⟩ := lightDrainStart_outGrows begun
    obtain ⟨target, settle, step, follow, warmth, drain⟩ := lightDrainStart_light begun
    obtain ⟨pow, pool, fetch, store, content, cache, eng⟩ : (lightDrainStart begun).pow = begun.pow ∧
        (lightDrainStart begun).pool = begun.pool ∧ (lightDrainStart begun).fetch = begun.fetch ∧
        (lightDrainStart begun).store = begun.store ∧ (lightDrainStart begun).content = begun.content ∧
        (lightDrainStart begun).cache = begun.cache ∧ (lightDrainStart begun).eng = begun.eng := by simp
    refine ⟨_, runs_served h served, ?_, target, settle, step, follow, warmth, drain, ?_, ?_, ⟨tail, ?_⟩, ?_⟩
    · exact pow
    · exact congrArg (List.map fun h => if h.isCredit then Holder.free else h) pool
    · simp only [State.creditLine, withdrawCredits, freeSlabs, List.any_map, List.any_eq_false]
      intro x _
      by_cases credit : x.isCredit = true
      · rw [Function.comp, if_pos credit]; decide
      · rw [Function.comp, if_neg credit]; exact credit
    · exact out.trans (List.append_assoc s.link.out [.response { kindByte := 0x45, tag := r.tag, code := .ok, body := [] }] tail)
    · exact ⟨fetch, store, content, cache, eng⟩

/-- Settles O49: the two timers that end a drain or a doze, the entry into SLEEP, and the return. -/
theorem sleepIsEntered : Obligations.SleepIsEntered := by
  refine ⟨fun s due p timer draining prior => ?fails, fun s due timer doze drained => ?resleeps, fun s => ?enters, fun s p => ?returns⟩
  case fails =>
    intro u
    refine runs_of_effect ((expire_armed timer drainExpires s).trans ((if_pos draining).trans ?_))
    unfold drainFail
    rw [show ({ s with now := max s.now due } : State).pow.prior = some p from prior]
    rfl
  case resleeps =>
    intro u
    exact runs_of_effect ((expire_armed timer resleepNow s).trans (if_pos ⟨doze, drained⟩))
  case enters =>
    intro ended cut asleep
    let slept := (sleepBlocks s).onPow fun p =>
      { p with state := .sleep, prior := none, drain := none, resleep := none, wakeTimer := s.wakeTimerFor, waking := [], exit := none }
    have slept_eq : recordPower 1 slept = asleep := by
      refine congrArg (trigger .power) ?_
      simp only [slept, sleepBlocks, lightSleep, State.onLight, State.onPow, converterOff_eq] <;> rfl
    have entered : enterSleep s = if s.pow.radioAttn = true then wakeSource .radio asleep else asleep := by rw [← slept_eq]; rfl
    refine ⟨fun low => entered.trans (if_neg (by rw [low]; decide)), fun high => (entered.trans (if_pos high)).trans ?_⟩
    rw [wakeSource_begins (by simp [asleep])]
    simp [asleep]
  case returns =>
    intro back
    have resumed : followResume (s.onPow fun q => { q with state := p, prior := none, drain := none, order := none }) = back :=
      followResume_eq _
    have returned : drainReturn p s = schedulePoint (creditPoint (restoreLight back)) := by rw [← resumed]; rfl
    exact ⟨fun dark => by rw [returned, restoreLight_none (s := back) dark],
      fun level lit => by rw [returned, restoreLight_some (s := back) lit], rfl⟩

/-- Settles O50: by what a wake source does before, within and outside a wake. -/
theorem wakeSourcesBeginWake : Obligations.WakeSourcesBeginWake := by
  intro s began marked
  have falls {t : State} {m : Bool} (source : (if s.pow.state = .sleep then wakeSource .host s else s) = t)
      (mark : (t.pow.state = .sleep ∧ .host ∈ t.pow.waking) ↔ m = true) : runs .chipSelectFall s (marked m t) :=
    runs_of_effect (show transferBegins (if s.pow.state = .sleep then wakeSource .host s else s) = _ by
      rw [source]; exact transferBegins_eq mark)
  have rises {high : Bool} {t : State} (source : (if (high && !s.pow.radioAttn && s.pow.state == .sleep) = true then
      wakeSource .radio { s with pow := { s.pow with radioAttn := high } } else { s with pow := { s.pow with radioAttn := high } }) = t) :
      runs (.radioAttnRise high) s t := runs_of_effect source
  have notices (low : s.pow.radioAttn = false) (asleep : s.pow.state = .sleep) :
      (true && !s.pow.radioAttn && s.pow.state == .sleep) = true := by rw [low, asleep]; rfl
  refine ⟨fun asleep bare => falls ((if_pos asleep).trans (wakeSource_begins bare)) ?_,
    fun asleep exits wakes new => falls ((if_pos asleep).trans (wakeSource_joins exits wakes new)) ?_,
    fun asleep exits host => falls ((if_pos asleep).trans (wakeSource_stays exits (.inr host))) ?_,
    fun asleep exits bare => falls ((if_pos asleep).trans (wakeSource_stays exits (.inl bare))) ?_,
    fun awake => falls (if_neg awake) ?_,
    fun due asleep bare timer =>
      runs_of_effect ((expire_armed timer wakeTimerNow s).trans ((if_pos asleep).trans (wakeSource_begins bare))),
    fun asleep bare low => rises ((if_pos (notices low asleep)).trans (wakeSource_begins bare)),
    fun asleep exits wakes new low => rises ((if_pos (notices low asleep)).trans (wakeSource_joins exits wakes new)),
    fun high h => rises (if_neg ?_)⟩
  · simp [began, asleep]
  · simp [asleep]
  · simp [asleep, host]
  · simp [bare]
  · simp [awake]
  · rcases h with awake | low | already
    · simp [awake]
    · simp [low]
    · simp [already]

end Sys2Proof.Claims
end

section
namespace Sys2Proof.Machine

open Sys2Proof Sys2Proof.Claims

/-! ## The warm reset event (R162) -/

/-- The light at a warm reset: its timers alone change (R98). -/
theorem warmLight_eq (s : State) : warmLight s = { s with light := { s.light with
    settle := none, events := 0, step := if s.light.follow = true then s.inMs 500 else none,
    ramp := if s.light.differs = true then s.inMs 10 else none } } := by
  unfold warmLight
  rw [rampArm_eq]
  rfl

/-- Every block but the book store after a warm reset, before its START event. -/
def State.warmed (s : State) : State :=
  { s with
    img := { s.img with held := [], stall := none },
    wav := (warmWaves s).wav,
    conv := s.conv.warm,
    eng := s.eng.warm,
    pool := freeSlabs (fun h => h.isEntry || h.isFetch) s.pool,
    cache := (warmKeys s).cache,
    keys := (warmKeys s).keys,
    light := { s.light with
      settle := none, events := 0, step := if s.light.follow = true then s.inMs 500 else none,
      ramp := if s.light.differs = true then s.inMs 10 else none },
    sup := (warmSupply s).sup,
    fetch := { Fetch.reset with slot := warmSlot s },
    pow := s.pow.warm,
    link := .reset }

theorem warmEvent_eq (s : State) : warmEvent s = recordPower 0 (warmStore s.warmed) := by
  let light : FrontLight := { s.light with
    settle := none, events := 0, step := if s.light.follow = true then s.inMs 500 else none,
    ramp := if s.light.differs = true then s.inMs 10 else none }
  have waves : warmWaves s = { s with wav := (warmWaves s).wav } := rfl
  have lit : warmLight (warmSupply (warmWaves s)) =
      { s with wav := (warmWaves s).wav, sup := (warmSupply s).sup, light := light } := by
    rw [warmLight_eq, waves]
    rfl
  have scanned : warmKeys { s with wav := (warmWaves s).wav, sup := (warmSupply s).sup, light := light } =
      { s with wav := (warmWaves s).wav, sup := (warmSupply s).sup, light := light, cache := (warmKeys s).cache,
               keys := (warmKeys s).keys } := rfl
  unfold warmEvent
  rw [lit, scanned]
  rfl

/-- A warm reset leaves the part ACTIVE, with START recorded. -/
theorem warmEvent_pow (s : State) : (warmEvent s).pow = { s.pow.warm with events := 1 } := by
  have kept : (warmStore s.warmed).pow = s.pow.warm := (warmStore_frame _).2.2.2.2.2.2.2.2.2.2
  rw [warmEvent_eq, recordPower, (trigger_frame .power _).2.2.2.2.2.2.2.2.2.2.2.2.2.2.2.2.2.2.2, kept]
  exact congrArg (fun e => { s.pow.warm with events := e }) (show setEvent 0 0 = 1 by decide)

/-- After a warm reset no request waits. -/
theorem warmEvent_inbound (s : State) : (warmEvent s).link.inbound = [] := by
  have kept : (warmStore s.warmed).link.inbound = [] := (warmStore_size _).2.2.2
  rw [warmEvent_eq, recordPower, (trigger_size .power _).2]
  exact kept

/-- A command that ends in a warm reset takes no request and leaves the part awake. -/
theorem exec_of_warm {c : Instr} {s u : State} (h : effect c s = warmEvent u) : exec c s = .next (warmEvent u) := by
  rw [exec_eq_event, h, event, finish_of_empty (warmEvent_inbound u)] <;> rw [warmEvent_pow] <;> exact nofun

/-! ## The book store at a warm reset (R147) -/

theorem warmStore_claiming {s : State} (h : s.store.flash = .claiming) :
    warmStore s = { s with store := { s.store with queue := [], flash := .idle, op := none } } := by
  unfold warmStore
  rw [h]
  rfl

theorem warmStore_offline {s : State} (h : s.store.flash = .offline) :
    warmStore s = { s with store := { s.store with queue := [], flash := .idle } } := by
  unfold warmStore
  rw [h]
  rfl

theorem warmStore_resetting {s : State} (h : s.store.flash = .resetting) :
    warmStore s = { s with store := { s.store with queue := [] } } := by
  unfold warmStore
  rw [h]
  rfl

/-- Of an operation at the flash, the end depends on its kind; without one the queue alone empties. -/
theorem warmStore_other {s : State} (h1 : s.store.flash ≠ .claiming) (h2 : s.store.flash ≠ .offline)
    (h3 : s.store.flash ≠ .resetting) : warmStore s = match s.store.op with
      | some o => warmOp o (s.onStore fun st => { st with queue := [] })
      | none => s.onStore fun st => { st with queue := [] } := by
  unfold warmStore
  cases flash : s.store.flash <;> first | exact absurd flash ‹_› | cases s.store.op <;> rfl

section

variable {s : State} {o : Op}

/-- The book store with an empty queue, and the operation at the flash without a host. -/
theorem warmStore_read {a n : Nat} (h1 : s.store.flash ≠ .claiming) (h2 : s.store.flash ≠ .offline)
    (h3 : s.store.flash ≠ .resetting) (op : s.store.op = some o) (kind : o.kind = .read a n) :
    let u : State := { s with store := { s.store with
      queue := [], flash := .idle, op := none, grant := none, page := 0, cut := false, suspends := 0, ran := 0, since := s.now } }
    warmStore s = if s.store.grant = none then u else decisionPass u := by
  rw [warmStore_other h1 h2 h3, op]
  simp only [warmOp, kind]
  exact clearOp_eq ..

theorem warmStore_program {a : Nat} {d : List Byte} (h1 : s.store.flash ≠ .claiming) (h2 : s.store.flash ≠ .offline)
    (h3 : s.store.flash ≠ .resetting) (op : s.store.op = some o) (kind : o.kind = .program a d) :
    warmStore s = { s with store := { s.store with queue := [], op := some o.orphan, cut := true } } := by
  rw [warmStore_other h1 h2 h3, op]
  simp only [warmOp, kind]
  rfl

theorem warmStore_erase {sec : Nat} (h1 : s.store.flash ≠ .claiming) (h2 : s.store.flash ≠ .offline)
    (h3 : s.store.flash ≠ .resetting) (op : s.store.op = some o) (kind : o.kind = .erase sec) :
    warmStore s = { s with
      content := memWrite s.content (sec * 131072) (freeBytes s.fresh 131072), fresh := s.fresh + 131072,
      store := { s.store with
        queue := [], op := some o.orphan, flash := .resetting, commanded := s.now, batch := [] } } := by
  rw [warmStore_other h1 h2 h3, op]
  simp only [warmOp, kind]
  rfl

end

/-- The slot empties when its operation is not yet at the flash. -/
theorem warmSlot_eq (s : State) (ofFetch : Op → Bool) (h : ∀ o, ofFetch o = (o.source == .fetch)) : warmSlot s =
    if (s.store.queue.any ofFetch || (s.store.flash == .claiming && s.store.op.any ofFetch)) = true then none
    else s.fetch.slot.map fun o => { o with ignored := true } := by
  have source : ofFetch = fun o => o.source == .fetch := funext h
  unfold warmSlot State.fetchQueued
  rw [source]
  cases s.store.op <;> rfl

/-- An operation whose host is gone. -/
theorem orphan_eq (o : Op) : o.orphan = { o with source := match o.source with
    | .host _ => .nobody
    | x => x } := by
  obtain ⟨source, kind, arrival⟩ := o
  cases source <;> rfl

end Sys2Proof.Machine

namespace Sys2Proof.Claims

open Sys2Proof Sys2Proof.Machine

/-- The whole state after a warm reset of an awake part. -/
theorem warmReset_awake {s : State} (high : s.pow.resetLow = false) (awake : s.pow.state.awake = true) :
    exec .warmReset s = .next (recordPower 0 (warmStore ({ s with pow := { s.pow with resetLow := true } } : State).warmed)) := by
  have falls : effect .warmReset s = warmEvent { s with pow := { s.pow with resetLow := true } } := by
    refine (if_neg (by rw [high]; decide)).trans ?_
    cases state : s.pow.state with
    | starting => rw [state] at awake; cases awake
    | sleep => rw [state] at awake; cases awake
    | active => rfl
    | doze => rfl
    | draining => rfl
  rw [exec_of_warm falls, warmEvent_eq]

/-- Settles O52: the reset event by the power state, and the store by the flash's state. -/
theorem warmResetKeepsAndDrops : Obligations.WarmResetKeepsAndDrops := by
  refine ⟨⟨fun s high awake flash op => ?idles, fun s => ⟨fun low => ?_, fun high starting => ?_, fun high asleep bare => ?_,
    fun high asleep exits => ?_⟩, fun s => runs_of_effect rfl⟩, fun s high awake => ?whole, fun s high awake => ?stores⟩
  case idles =>
    let fallen : State := { s with pow := { s.pow with resetLow := true } }
    have store : warmStore fallen.warmed = fallen.warmed.onStore fun st => { st with queue := [] } := by
      refine (warmStore_other (s := fallen.warmed) ?_ ?_ ?_).trans (by rw [show fallen.warmed.store.op = none from op])
      all_goals rw [show fallen.warmed.store.flash = .idle from flash]; decide
    have reset := warmReset_awake high awake
    rw [show warmStore (State.warmed { s with pow := { s.pow with resetLow := true } }) = _ from store] at reset
    refine ⟨_, reset, rfl, rfl, rfl, rfl, rfl, show setEvent 0 0 = 1 by decide, rfl,
      rfl, rfl, rfl, rfl, rfl, rfl, rfl, rfl, rfl, rfl, rfl,
      rfl, rfl, fun l driven => ?_, rfl, rfl, rfl, rfl, fun h held => ?_, fun c => ?_, rfl, rfl, rfl, rfl, rfl, rfl, rfl, rfl, rfl, rfl,
      rfl, rfl, rfl, rfl, keyClock_restarted rfl, ?_⟩
    · obtain ⟨old, -, lane⟩ := List.mem_map.1 driven
      obtain ⟨was, -, rfl⟩ := Option.map_eq_some_iff.1 lane
      exact ⟨rfl, rfl, rfl⟩
    · obtain ⟨old, -, rfl⟩ := List.mem_map.1 held
      cases old <;> simp [Holder.isEntry, Holder.isFetch]
    · match c with
      | 0 | 1 | 2 | 3 | _ + 4 => rfl
    · rfl
  case whole =>
    intro key ofFetch unstarted unanswered stored ends
    let fallen : State := { s with pow := { s.pow with resetLow := true } }
    have source (o : Op) : ofFetch o = (o.source == .fetch) := by
      obtain ⟨source, kind, arrival⟩ := o
      cases source <;> rfl
    have slot : warmSlot fallen = if unstarted = true then none else s.fetch.slot.map fun o => { o with ignored := true } :=
      warmSlot_eq fallen ofFetch source
    have pool : freeSlabs (fun h => h.isEntry || h.isFetch) s.pool = s.pool.map fun h => match h with
        | .free => .free
        | .target => .target
        | .entry _ | .credit _ | .chunk _ _ => .free := List.map_congr_left fun h _ => by cases h <;> rfl
    have stored_eq (st : Store) : stored st = { fallen.warmed with store := { st with queue := [] } } := by
      simp only [State.warmed]
      rw [slot, show freeSlabs _ fallen.pool = _ from pool]
      rfl
    have ended {u : State} (events : u.pow.events = 0) (store : warmStore fallen.warmed = u) : ends u := by
      refine (warmReset_awake high awake).trans ?_
      rw [show ({ s with pow := { s.pow with resetLow := true } } : State).warmed = fallen.warmed from rfl, store, recordPower, events]
      rfl
    refine ⟨fun claiming => ended rfl ?_, fun offline => ended rfl ?_, fun resetting => ended rfl ?_, fun h1 h2 h3 => ?_⟩
    · rw [warmStore_claiming (s := fallen.warmed) claiming, stored_eq]
      rfl
    · rw [warmStore_offline (s := fallen.warmed) offline, stored_eq]
      rfl
    · rw [warmStore_resetting (s := fallen.warmed) resetting, stored_eq]
      rfl
    · have other := warmStore_other (s := fallen.warmed) h1 h2 h3
      refine ⟨fun op => ended rfl ?_, fun o a n op kind => ?_, fun o a d op kind => ended rfl ?_, fun o sec op kind => ended rfl ?_⟩
      · rw [other, show fallen.warmed.store.op = none from op, stored_eq]
        rfl
      · intro u
        have read := warmStore_read (s := fallen.warmed) h1 h2 h3 op kind
        have u_eq : u = _ := stored_eq _
        refine ⟨fun free => ended rfl ?_, fun held => ended (u := decisionPass u) (by simp; rfl) ?_⟩
        · rw [read, if_pos (show fallen.warmed.store.grant = none from free), u_eq]
          rfl
        · rw [read, if_neg (show ¬ fallen.warmed.store.grant = none from held), u_eq]
          rfl
      · rw [warmStore_program (s := fallen.warmed) h1 h2 h3 op kind, orphan_eq, stored_eq]
        rfl
      · rw [warmStore_erase (s := fallen.warmed) h1 h2 h3 op kind, orphan_eq, stored_eq]
        rfl
  case stores =>
    intro unanswered
    let fallen : State := { s with pow := { s.pow with resetLow := true } }
    have left {st : Store} {m : Memory} (store : (warmStore fallen.warmed).store = st) (content : (warmStore fallen.warmed).content = m) :
        (recordPower 0 (warmStore fallen.warmed)).content = m ∧ (recordPower 0 (warmStore fallen.warmed)).store = st :=
      ⟨by simp [content], by simp [store]⟩
    refine ⟨_, warmReset_awake high awake, fun claiming => (left ?_ ?_).symm, fun offline => (left ?_ ?_).symm,
      fun resetting => (left ?_ ?_).symm, fun working => ?_⟩
    · rw [warmStore_claiming (s := fallen.warmed) claiming]; rfl
    · rw [warmStore_claiming (s := fallen.warmed) claiming]; rfl
    · rw [warmStore_offline (s := fallen.warmed) offline]; rfl
    · rw [warmStore_offline (s := fallen.warmed) offline]; rfl
    · rw [warmStore_resetting (s := fallen.warmed) resetting]; rfl
    · rw [warmStore_resetting (s := fallen.warmed) resetting]; rfl
    · obtain ⟨h1, h2, h3⟩ : s.store.flash ≠ .claiming ∧ s.store.flash ≠ .offline ∧ s.store.flash ≠ .resetting := by
        rcases working with flash | flash | flash <;> rw [flash] <;> decide
      refine ⟨fun src a n k op => ?_, fun src a d k op => left ?_ ?_, fun src sec k op => left ?_ ?_⟩
      · have read := warmStore_read (s := fallen.warmed) h1 h2 h3 op rfl
        by_cases free : s.store.grant = none
        · replace read := read.trans (if_pos (show fallen.warmed.store.grant = none from free))
          refine left ?_ ?_ <;> rw [read] <;> rfl
        · replace read := (read.trans (if_neg (show ¬ fallen.warmed.store.grant = none from free))).trans (decisionPass_empty rfl)
          have store := congrArg State.store read
          have content := congrArg State.content read
          simp only [standingWant_frame] at store content
          exact left store content
      · rw [warmStore_program (s := fallen.warmed) h1 h2 h3 op rfl, orphan_eq]
        cases src <;> rfl
      · rw [warmStore_program (s := fallen.warmed) h1 h2 h3 op rfl]
        rfl
      · rw [warmStore_erase (s := fallen.warmed) h1 h2 h3 op rfl, orphan_eq]
        cases src <;> rfl
      · rw [warmStore_erase (s := fallen.warmed) h1 h2 h3 op rfl]
        rfl
  all_goals refine runs_of_effect ?_
  · exact if_pos low
  all_goals refine (if_neg (by rw [high]; decide)).trans ?_
  · rw [starting]
    rfl
  · rw [asleep]
    simp only [resetInSleep, State.onPow, bare, Option.isNone_none, if_true]
    rfl
  · rw [asleep]
    obtain ⟨due, exit⟩ := Option.ne_none_iff_exists'.1 exits
    simp only [resetInSleep, State.onPow, exit, Option.isNone_some, Bool.false_eq_true, if_false]

end Sys2Proof.Claims
end

section
namespace Sys2Proof.Machine

open Sys2Proof Sys2Proof.Claims

/-! ## The end of a self-refresh exit (R154, R155) -/

/-- The light at a wake: its outputs start with the duties of R89, and its ramp and follow steps resume (R90, R97). -/
def State.lightUp (s : State) : FrontLight :=
  { s.light with
    pwmOn := true, warmDuty := s.warmDutyNow, coolDuty := s.coolDutyNow, warmDiv := s.settingNat .pwmDiv,
    coolDiv := s.settingNat .pwmDiv, ramp := if s.light.differs = true then s.inMs 10 else s.light.ramp,
    step := if s.light.follow = true then s.inMs 500 else s.light.step }

theorem lightWake_lightUp (s : State) : lightWake s = { s with light := s.lightUp } := lightWake_eq s

/-- The converter's choice changes the converter alone. -/
theorem convKick_conv (s : State) : convKick s = { s with conv := (convKick s).conv } := by
  unfold convKick
  split
  · split <;> rfl
  · rfl

/-- The blocks after a wake: the converter begins its conversions, the flash and the light come up (R154). -/
theorem wakeBlocks_eq (s : State) :
    let kicked := convKick { s with
      pow := { s.pow with state := if WakeSource.host ∈ s.pow.waking then .active else .doze, exit := none },
      conv := { s.conv with powered := true, temp := true, batt := true } }
    wakeBlocks s = { kicked with light := s.lightUp, store := { s.store with
      flash := if s.store.flash = .lowPower then .idle else s.store.flash } } := by
  intro kicked
  have wakes : s.pow.wakesTo = if WakeSource.host ∈ s.pow.waking then .active else .doze :=
    ite_congr (propext List.contains_iff_mem) (fun _ => rfl) fun _ => rfl
  have blocks : wakeBlocks s = lightWake (flashUp kicked) := by
    unfold wakeBlocks
    simp only [State.onPow, wakes]
    rfl
  rw [blocks, show kicked = _ from convKick_conv _, lightWake_lightUp]
  rfl

/-! ## Keys and their actions (R155) -/

theorem setKey_setKey (k : Scanner) (key : Key) (v w : KeyScan) : (k.setKey key v).setKey key w = k.setKey key w := by
  cases key <;> rfl

theorem setKey_key (k : Scanner) (key : Key) : k.setKey key (k.key key) = k := by cases key <;> rfl

theorem key_setKey (k : Scanner) (key : Key) (v : KeyScan) : (k.setKey key v).key key = v := by cases key <;> rfl

/-- One change of a key after another. -/
theorem onKey_onKey (s : State) (k : Key) (f g : KeyScan → KeyScan) : (s.onKey k f).onKey k g = s.onKey k fun ks => g (f ks) := by
  simp only [State.onKey, key_setKey, setKey_setKey]

section

variable {s : State} {k : Key} {d : Dir}

/-- A turn attempt leaves the keys, so that a change of one then is a change of it as it was. -/
theorem turnAttempt_onKey (o : Source) (place : Nat) (u : State) (f : KeyScan → KeyScan) : (turnAttempt d o place u).onKey k f =
    { turnAttempt d o place u with keys := u.keys.setKey k (f (u.keys.key k)) } := by
  have keys : (turnAttempt d o place u).keys = u.keys := by simp
  rw [State.onKey, keys]

/-- A key's turn is the last update of its press (R80). -/
theorem keyTurn_turns (hit : s.turnMiss d = none) : keyTurn k d s = { turnAttempt d .key (s.displayPlace + 1) s with
    keys := s.keys.setKey k { s.keys.key k with last := some s.eng.nextNum } } :=
  (if_pos hit).trans (turnAttempt_onKey ..)

theorem keyTurn_misses (missed : s.turnMiss d ≠ none) : keyTurn k d s = turnAttempt d .key (s.displayPlace + 1) s := if_neg missed

/-- A turn of a wake: the update is the key's last one only while the key is down. -/
theorem wakeTurn_eq :
    let t := turnAttempt d .key (s.displayPlace + 1) s
    (s.turnsEnabled = false → wakeTurn k d s = s) ∧
    (s.turnsEnabled = true → s.turnMiss d = none → (s.keys.key k).state ≠ .up → wakeTurn k d s =
      { t with keys := s.keys.setKey k { s.keys.key k with last := some s.eng.nextNum } }) ∧
    (s.turnsEnabled = true → (s.turnMiss d ≠ none ∨ (s.keys.key k).state = .up) → wakeTurn k d s = t) := by
  intro t
  have kept : ({ t with keys := s.keys.setKey k (s.keys.key k) } : State) = t := by
    rw [setKey_key, show s.keys = t.keys by simp [t]]
  refine ⟨fun off => if_neg (by rw [off]; decide), fun on hit down => (if_pos on).trans ((if_neg down).trans (keyTurn_turns hit)),
    fun on h => (if_pos on).trans ?_⟩
  by_cases hit : s.turnMiss d = none
  · refine (if_pos (h.resolve_left (Classical.not_not.2 hit))).trans ?_
    rw [keyTurn_turns hit]
    simp only [State.onKey, key_setKey, setKey_setKey]
    exact kept
  · rw [keyTurn_misses hit]
    by_cases up : (s.keys.key k).state = .up
    · exact (if_pos up).trans ((turnAttempt_onKey ..).trans kept)
    · exact if_neg up

end

end Sys2Proof.Machine

namespace Sys2Proof.Claims

open Sys2Proof Sys2Proof.Machine

/-- Settles O51: the blocks at a wake, each source's action, and a reset that waits. -/
theorem exitEndWakes : Obligations.ExitEndWakes := by
  refine ⟨fun s due exit asleep waking free unarmed slot queue idle last flash => ?radio, fun s due exit waking => ?wakes,
    fun s => ⟨fun k d dir => ?turns, fun off => if_neg (by rw [off]; decide), fun on => ?lights, rfl, rfl, rfl, rfl⟩,
    fun s due exit waits => ?resets⟩
  case radio =>
    let u : State := { s with now := max s.now due }
    let conv : Converter := { temp := false, batt := true, amb := s.conv.amb, busy := some (.temp, max s.now due + 200),
                              last := .amb, powered := true }
    let up : State := { u with
      pow := { s.pow with state := .doze, exit := none }, conv := conv, light := u.lightUp,
      store := { s.store with flash := .idle } }
    let ready : State := { u with
      pow := { s.pow with state := .doze, exit := none }, conv := { s.conv with powered := true, temp := true, batt := true } }
    have order : chansAfter ready.conv.last = [] ++ .temp :: [.batt, .amb] := by rw [show ready.conv.last = .amb from last]; rfl
    have kicked : convKick ready = { u with pow := { s.pow with state := .doze, exit := none }, conv := conv } := by
      refine (convKick_begins (s := ready) rfl idle order rfl (by simp)).trans ?_
      simp only [conv, ← last]
      rfl
    have blocks : wakeBlocks u = up := by
      rw [wakeBlocks_eq, if_neg (show ¬ WakeSource.host ∈ u.pow.waking by rw [show u.pow.waking = [.radio] from waking]; decide),
        show convKick _ = _ from kicked, if_pos (show u.store.flash = .lowPower from flash)]
    have woken : wakeEnd u = up.onPow fun p => { p with
        waking := [], resleepPending := p.state == .doze && p.asksResleep, order := if p.state = .active then none else p.order } := by
      unfold wakeEnd
      rw [blocks, show u.pow.waking = [.radio] from waking]
      simp only [List.foldl_cons, List.foldl_nil, wakeAction]
      rw [creditPoint_unarmed up unarmed, schedulePoint_unarmed up unarmed queue]
    have ends : effect .selfRefreshExitEnd s = (wakeEnd u).onPow fun p => { p with exit := none } := by
      refine (expire_armed exit exitEnds s).trans ?_
      unfold exitEnds
      rw [if_neg (show ¬ u.pow.waking = [] by rw [show u.pow.waking = [.radio] from waking]; decide)]
      exact if_neg (by rw [free]; decide)
    rw [woken] at ends
    exact ⟨_, runs_of_effect ends, rfl, rfl, rfl, rfl, rfl, rfl, rfl, rfl, rfl, rfl, rfl, rfl, rfl, rfl, rfl⟩
  case wakes =>
    intro u kicked light up t done
    have blocks : wakeBlocks u = up := by
      rw [wakeBlocks_eq]
      rfl
    have woken : wakeEnd u = { t with pow := done } := by
      unfold wakeEnd
      rw [blocks]
      rfl
    have ends : effect .selfRefreshExitEnd s = if s.pow.resetWaits = true then warmEvent (wakeEnd u) else
        (wakeEnd u).onPow fun p => { p with exit := none } := by
      refine (expire_armed exit exitEnds s).trans ?_
      unfold exitEnds
      rw [if_neg (show ¬ u.pow.waking = [] from waking)]
    rw [woken] at ends
    exact ⟨fun free => runs_of_effect (ends.trans (if_neg (by rw [free]; decide))),
      fun waits => runs_of_effect (ends.trans (if_pos waits))⟩
  case turns =>
    intro t
    have turns := wakeTurn_eq (s := s) (k := k) (d := d)
    cases k <;> cases dir <;> exact turns
  case lights =>
    intro muted
    refine ⟨fun level drain => ?_, fun bare => ?_⟩
    · refine (if_pos on).trans ?_
      simp only [drain, Option.isSome_some, if_true, restoreLight_some drain]
      have keys : (targetsChanged { s with light := { s.light with levelTarget := level, drainLevel := none } }).keys = s.keys := by
        simp
      rw [State.onKey, keys]
      rfl
    · refine (if_pos on).trans ?_
      simp only [bare, Option.isSome_none, Bool.false_eq_true, if_false]
      rw [State.onKey, show (toggleLight s).keys = s.keys by simp]
      rfl
  case resets =>
    intro u
    have ends : effect .selfRefreshExitEnd s = warmEvent (if u.pow.waking = [] then resetBlocks u else wakeEnd u) :=
      (expire_armed exit exitEnds s).trans (if_pos waits)
    refine ⟨fun bare => runs_of_effect (ends.trans ?_), warmEvent _, exec_of_warm ends, ?_, ?_, ?_, ?_, warmEvent_inbound _⟩
    · rw [if_pos (show u.pow.waking = [] from bare), resetBlocks, lightWake_lightUp]
      rfl
    all_goals rw [warmEvent_pow]; rfl

end Sys2Proof.Claims
end

section
namespace Sys2Proof.Machine

open Sys2Proof Sys2Proof.Claims

/-! ## Storing a setting (R173) -/

@[simp] theorem settingEffect_frame (st : Setting) (s : State) :
    (settingEffect st s).settings = s.settings ∧ (settingEffect st s).keys = s.keys ∧ (settingEffect st s).cache = s.cache ∧
    (settingEffect st s).content = s.content ∧ (settingEffect st s).pow = s.pow ∧ (settingEffect st s).now = s.now := by
  unfold settingEffect
  split <;> simp [lightMix, State.onLight]

@[simp] theorem linkSettings_frame (st : Setting) (s : State) :
    (linkSettings st s).keys = s.keys ∧ (linkSettings st s).cache = s.cache ∧ (linkSettings st s).content = s.content ∧
    (linkSettings st s).pow = s.pow ∧ (linkSettings st s).now = s.now := by
  unfold linkSettings
  repeat' split
  all_goals simp [State.putSetting]

/-- What a stored setting does at once changes no setting. -/
theorem settingEffect_setting (st other : Setting) (s : State) : (settingEffect st s).setting other = s.setting other := by
  have kept : (settingEffect st s).settings = s.settings := (settingEffect_frame st s).1
  unfold State.setting
  rw [kept]

/-- A linked setting moves up with the lower one, and no other setting moves. -/
theorem linkSettings_setting {s : State} (length : s.settings.length = 38) (st other : Setting) :
    (linkSettings st s).setting other =
      if st = .tempIntervalS ∧ other = .tempMaxAgeS then max (s.setting .tempMaxAgeS) (s.setting .tempIntervalS)
      else if st = .tempLowDd ∧ other = .tempHighDd then max (s.setting .tempHighDd) (s.setting .tempLowDd)
      else s.setting other := by
  have moved (high low : Setting) : (if s.setting high < s.setting low then s.putSetting high (s.setting low) else s).setting other =
      if other = high then max (s.setting high) (s.setting low) else s.setting other := by
    split
    · rename_i below
      rw [setting_putSetting s high other _ length, Int.max_eq_right (Int.le_of_lt below)]
      exact ite_congr (propext eq_comm) (fun _ => rfl) fun _ => rfl
    · rename_i above
      split
      · rename_i same
        rw [same, Int.max_eq_left (Int.not_lt.1 above)]
      · rfl
  by_cases interval : st = .tempIntervalS
  · subst interval
    refine (moved .tempMaxAgeS .tempIntervalS).trans ?_
    simp
  · by_cases low : st = .tempLowDd
    · subst low
      refine (moved .tempHighDd .tempLowDd).trans ?_
      simp
    · rw [if_neg (mt And.left interval), if_neg (mt And.left low)]
      cases st <;> first | rfl | contradiction

/-- What every setting is after one is stored: the linked one, the one stored, and the rest. -/
theorem storeSetting_setting {s : State} (length : s.settings.length = 38) (st other : Setting) (v : Int) :
    (storeSetting st v s).setting other =
      if st = .tempIntervalS ∧ other = .tempMaxAgeS then max (s.setting .tempMaxAgeS) (s.clampSetting st v)
      else if st = .tempLowDd ∧ other = .tempHighDd then max (s.setting .tempHighDd) (s.clampSetting st v)
      else if st = other then s.clampSetting st v else s.setting other := by
  have put := setting_putSetting s st
  rw [storeSetting, settingEffect_setting, linkSettings_setting (by simpa [State.putSetting] using length)]
  refine ite_congr rfl (fun h => ?_) fun _ => ite_congr rfl (fun h => ?_) fun _ => put other _ length
  · rw [put _ _ length, put _ _ length, h.1]; rfl
  · rw [put _ _ length, put _ _ length, h.1]; rfl

theorem clampSetting_plain (s : State) {st : Setting} (v : Int) (h1 : st ≠ .wakeSet) (h2 : st ≠ .tempMaxAgeS)
    (h3 : st ≠ .tempHighDd) :
    s.clampSetting st v = max (settingRow st).lo (min (settingRow st).hi v) := by
  cases st <;> first | rfl | contradiction

/-! ## Moderation (R171) -/

theorem settle_stopped {v : Moderation} (h : v.settle = none) : { v with settle := none } = v := by
  cases v
  cases h
  rfl

theorem absolute_stopped {v : Moderation} (h : v.absolute = none) : { v with absolute := none } = v := by
  cases v
  cases h
  rfl

end Sys2Proof.Machine

namespace Sys2Proof.Claims

open Sys2Proof Sys2Proof.Machine

/-- Settles O53: the three requests, and every setting after one is stored. -/
theorem settingsStored : Obligations.SettingsStored := by
  refine ⟨⟨fun s r h => ⟨fun unknown => runs_refused h ?_, fun st known => runs_answered h ?_⟩,
    fun s r h => ⟨fun unknown => runs_refused h ?_, fun st known => runs_answered h ?_⟩, fun s r h => runs_answered h rfl⟩,
    fun s st v length => ?stores⟩
  · simp only [serve, serveSet, unknown]
  · simp only [serve, serveSet, known]
    rfl
  · simp only [serve, serveGet, unknown]
  · simp only [serve, serveGet, known]
    rfl
  case stores =>
    intro t row put
    have value (other : Setting) := storeSetting_setting length st other v
    have own : t.setting st = s.clampSetting st v := by
      refine (value st).trans ?_
      rw [if_neg, if_neg, if_pos rfl] <;> rintro ⟨rfl, h⟩ <;> cases h
    refine ⟨fun h1 h2 h3 => own.trans (clampSetting_plain s v h1 h2 h3), ?_, ?_, ?_, fun ordered => ?_, fun ordered => ?_,
      fun other ne h1 h2 => (value other).trans ?_, ?_, ?_, ?_, ?_⟩
    · rintro rfl; exact own
    · rintro rfl; exact own
    · rintro rfl
      have wake : t.setting .wakeSet = v % 512 := own
      omega
    · rw [show t.setting _ = _ from value _, show t.setting _ = _ from value _]
      by_cases interval : st = .tempIntervalS
      · subst interval; simp [Int.le_max_right]
      · by_cases age : st = .tempMaxAgeS
        · subst age; simp [Int.le_max_left, State.clampSetting, State.lowerEnd]
        · simp [interval, age, ordered]
    · rw [show t.setting _ = _ from value _, show t.setting _ = _ from value _]
      by_cases low : st = .tempLowDd
      · subst low; simp [Int.le_max_right]
      · by_cases high : st = .tempHighDd
        · subst high; simp [Int.le_max_left, State.clampSetting, State.lowerEnd]
        · simp [low, high, ordered]
    · exact (if_neg h1).trans ((if_neg h2).trans (if_neg ne.symm))
    · rintro (rfl | rfl) <;> rfl
    · rintro rfl; rfl
    · rintro (rfl | rfl) <;> rfl
    · simp [t, storeSetting, State.putSetting]

/-- Settles O54: the checks of a write in order, and what an accepted packet becomes. -/
theorem writeTransferAccepts : Obligations.WriteTransferAccepts := by
  intro s b ended n framed summed
  have closed : s.pow.state = .starting ∨ s.pow.resetLow = true → s.linkOpen = false := by
    rintro (state | low)
    · simp [State.linkOpen, state]
    · simp [State.linkOpen, low]
  refine ⟨fun h => runs_of_effect (if_neg (by rw [closed h]; decide)), fun state high => ?_⟩
  have link : s.linkOpen = true := by simp [State.linkOpen, state, high]
  have judged {c : WriteResult} (check : s.writeCheck b = c) : effect (.writeTransfer b) s = match (generalizing := false) c with
      | .framing => recordLink 1 ended
      | .crc => recordLink 0 ended
      | .notReady => recordLink 2 ended
      | .hostPacket => acceptPacket b (hostArrives s) := by
    rw [← check]
    exact if_pos link
  have framed_iff : ¬ (b.length < 4 ∨ 4160 < nat16At b 2 ∨ b.length < nat16At b 2 + 6) ↔ framed := by
    simp only [framed, n]
    omega
  refine ⟨fun bad => runs_of_effect (judged (if_pos (Classical.not_not.1 (mt framed_iff.1 bad)))),
    fun good bad => runs_of_effect (judged (c := .crc) ?_), fun good sum shut => runs_of_effect (judged (c := .notReady) ?_),
    fun good sum ready mark u active doze draining => ?_⟩
  · exact (if_neg (framed_iff.2 good)).trans (if_pos bad)
  · refine (if_neg (framed_iff.2 good)).trans ((if_neg (Classical.not_not.2 sum)).trans (if_neg ?_))
    rcases shut with unready | marked
    · simp [unready]
    · simp [marked]
  · have accepts : s.writeCheck b = .hostPacket :=
      (if_neg (framed_iff.2 good)).trans ((if_neg (Classical.not_not.2 sum)).trans (if_pos (by simp [ready, mark])))
    have arrives : hostArrives s = u := by
      have awake : s.pow.state.awake = true := by
        unfold State.ready at ready
        simp only [Bool.and_eq_true] at ready
        exact ready.1.1.1
      unfold hostArrives
      cases at' : s.pow.state with
      | starting => rw [at'] at awake; cases awake
      | sleep => rw [at'] at awake; cases awake
      | active => exact (active at').symm
      | doze => exact (doze at').symm
      | draining => exact (draining at').symm
    have accepted : effect (.writeTransfer b) s = acceptPacket b u := (judged accepts).trans (by rw [arrives])
    intro opened refusal
    refine ⟨fun unknown => runs_of_effect (accepted.trans ?_), fun k known long => runs_of_effect (accepted.trans ?_),
      fun k known fits => runs_of_effect (accepted.trans ?_)⟩
    all_goals unfold acceptPacket
    · simp only [unknown]
      rfl
    · simp only [known]
      exact if_neg (by rw [long]; decide)
    · simp only [known]
      exact if_pos fits

/-- Settles O56: a read by the head of the queue, and what leaves it. -/
theorem readsDeliverHead : Obligations.ReadsDeliverHead := by
  refine ⟨fun s awake high unmarked => ?serves, fun s h => ?unserved, fun s i rest reading out => ?leaves,
    fun s => ⟨fun reading => ?_, fun reading => ?_⟩, fun s => ⟨fun state high => ?_, fun h => ?_⟩⟩
  case serves =>
    have served : s.servesReads = true := by simp [State.servesReads, awake, high, unmarked]
    have read {out : List OutItem} (h : s.link.out = out) : effect .readTransfer s = match (generalizing := false) out with
        | [] => clockOut emptyPacket .empty s
        | .response r :: _ => clockOut r.packet .head s
        | .waiting k :: rest => clockOut (s.noticePacket k) .head (buildNotice k rest s)
        | .built _ p :: _ => clockOut p .head s := by
      rw [← h]
      exact if_pos served
    refine ⟨fun empty => runs_of_effect (read empty), fun r rest head => runs_of_effect (read head), fun k rest head => ?_,
      fun k p rest head => runs_of_effect (read head)⟩
    intro p emptied t
    have merged : t.link.merged = s.link.merged.set k.index 0 := rfl
    refine ⟨runs_of_effect ((read head).trans ?_), ?_, ?_⟩
    · cases k <;> rfl
    · rw [State.mergedOf, merged]
      rw [List.getD_eq_getElem?_getD, List.getElem?_set_self']
      cases s.link.merged[k.index]? <;> rfl
    · rw [Bool.eq_iff_iff, noticeWaits_iff, List.any_eq_true]
      simp [t]
  case unserved =>
    have closed : s.servesReads = false := by
      rcases h with asleep | low | marked
      · simp [State.servesReads, asleep]
      · simp [State.servesReads, low]
      · simp [State.servesReads, marked]
    exact runs_of_effect (if_neg (by rw [closed]; decide))
  case leaves =>
    refine runs_of_effect (show packetLeftNow s = _ from ?_)
    unfold packetLeftNow packetLeaves
    rw [reading, out]
  · refine runs_of_effect (show packetLeftNow s = _ from ?_)
    unfold packetLeftNow
    rw [reading]
  · refine runs_of_effect (show packetLeftNow s = _ from ?_)
    unfold packetLeftNow
    rw [reading]
  · exact runs_of_effect (if_pos (by simp [State.linkOpen, state, high]))
  · refine runs_of_effect (if_neg ?_)
    rcases h with state | low
    · simp [State.linkOpen, state]
    · simp [State.linkOpen, low]

/-- Settles O57: a trigger, the moderation of DONE and FETCH, and the list's 48th record. -/
theorem noticesMergeAndModerate : Obligations.NoticesMergeAndModerate := by
  refine ⟨fun s k length => ⟨fun waits => ?_, fun bare => if_neg (mt (noticeWaits_iff s k).1 bare)⟩, fun s m => ?moderates,
    fun s c => ?records⟩
  · have merges : trigger k s = mergeTrigger k s := if_pos ((noticeWaits_iff s k).2 waits)
    rw [merges]
    refine ⟨rfl, ?_, fun j other => ?_⟩ <;>
      simp only [State.mergedOf, mergeTrigger, List.getD_eq_getElem?_getD, List.getElem?_modify]
    · have inside : k.index < s.link.merged.length := by rw [length]; exact noticeKind_index_lt k
      simp [inside]
    · have apart : k.index ≠ j.index := fun same => other (noticeKind_index_inj same).symm
      simp [apart]
  case moderates =>
    intro k old made atOnce
    have first_iff : (s.countSetting m ≤ old.count + 1 ∨ s.settleSetting m = 0 ∨ (old.count + 1 = 1 ∧ s.absoluteSetting m = 0)) ↔
        atOnce := by simp only [atOnce, Nat.add_eq_right]
    have counted (bare : s.noticeWaits k = false) (later : ¬ atOnce) : moderatedTrigger m s = s.setModeration m
        { count := old.count + 1, settle := some (s.now + 1000 * s.settleSetting m),
          absolute := if old.count + 1 = 1 then some (s.now + 1000 * s.absoluteSetting m) else old.absolute } :=
      (if_neg (by rw [bare]; decide)).trans (if_neg (mt first_iff.1 later))
    have set_old : s.setModeration m old = s := by cases m <;> rfl
    have set_now (due : Nat) (v : Moderation) : (s.setModeration m v).upTo due =
        ({ s with now := max s.now due } : State).setModeration m v := by cases m <;> rfl
    have count_eq (v : Moderation) (u : State) : (u.setModeration m v).moderation m = v := by cases m <;> rfl
    have made_set (v : Moderation) (u : State) : createModerated m (u.setModeration m v) = made u := by cases m <;> rfl
    have expires {due : Nat} {v : Moderation} (u : State) : moderationExpiry m (some due) (s.setModeration m v) =
        if v.count = 0 then ({ s with now := max s.now due } : State).setModeration m v
        else made { s with now := max s.now due } := by
      unfold moderationExpiry expire
      simp only [set_now, count_eq, made_set]
    have settles {timer : Timer} (h : old.settle = timer) : effect (.moderationSettleExpiry m) s =
        moderationExpiry m timer (s.setModeration m { old with settle := none }) := by rw [← h]; rfl
    have lapses {timer : Timer} (h : old.absolute = timer) : effect (.moderationAbsoluteExpiry m) s =
        moderationExpiry m timer (s.setModeration m { old with absolute := none }) := by rw [← h]; rfl
    refine ⟨fun waits => ⟨?_, ?_⟩, fun bare => ⟨?_, fun now => ?_, fun later first => ?_, fun later more => ?_⟩,
      fun stopped => ?_, fun due running => ⟨fun some' => ?_, fun none' => ?_⟩, fun stopped => ?_,
      fun due running => ⟨fun some' => ?_, fun none' => ?_⟩⟩
    · exact (if_pos waits).trans (if_pos waits).symm
    · exact (if_pos waits).trans (if_pos waits).symm
    · exact if_neg (by rw [bare]; decide)
    · exact (if_neg (by rw [bare]; decide)).trans (if_pos (first_iff.2 now))
    · rw [counted bare later, if_pos (by omega), first]
    · rw [counted bare later, if_neg (by omega)]
    all_goals refine runs_of_effect ?_
    · exact (settles stopped).trans ((congrArg (s.setModeration m) (settle_stopped stopped)).trans set_old)
    · exact (settles running).trans ((expires s).trans (if_neg some'))
    · exact (settles running).trans ((expires s).trans (if_pos none'))
    · exact (lapses stopped).trans ((congrArg (s.setModeration m) (absolute_stopped stopped)).trans set_old)
    · exact (lapses running).trans ((expires s).trans (if_neg some'))
    · exact (lapses running).trans ((expires s).trans (if_pos none'))
  case records =>
    intro u
    have eng : u.eng = { s.eng with completions := s.eng.completions ++ [c] } := by simp [u]
    have size : u.eng.completions.length = s.eng.completions.length + 1 := by rw [eng]; simp
    have appended : appendCompletion c s = if 48 ≤ u.eng.completions.length ∧ u.noticeWaits .done = false then
        createModerated .done u else u := rfl
    refine ⟨eng, fun h => appended.trans (if_neg ?_), fun full bare => ⟨?_, ?_⟩⟩
    · rintro ⟨full, bare⟩
      rcases h with few | waits
      · omega
      · rw [bare] at waits; cases waits
    all_goals have forced := appended.trans (if_pos ⟨by omega, bare⟩)
    · exact forced
    · rw [forced, noticeWaits_iff]
      exact List.mem_append_right _ (List.mem_singleton_self _)

end Sys2Proof.Claims
end

section
namespace Sys2Proof.Machine

open Sys2Proof Sys2Proof.Claims

/-! ## Keys (R78 to R84) -/

theorem turnsEnabled_congr {s t : State} (h : t.settings = s.settings) : t.turnsEnabled = s.turnsEnabled := by
  unfold State.turnsEnabled State.settingNat State.setting
  rw [h]

theorem toggleEnabled_congr {s t : State} (h : t.settings = s.settings) : t.toggleEnabled = s.toggleEnabled := by
  unfold State.toggleEnabled State.settingNat State.setting
  rw [h]

/-- A tick of a run is skipped, ends it, or is a turn attempt (R81). -/
theorem runTickNow_eq (k : Key) (d : Dir) (n : Nat) (u : State) : runTickNow k d n u = ticked k d n u := by
  refine ite_congr rfl (fun _ => rfl) fun _ => ite_congr rfl (fun _ => rfl) fun _ => ?_
  by_cases hit : u.turnMiss d = none
  · have made : armRun k (n + 1) ((turnAttempt d .run u.nextPlace u).onKey k fun ks => { ks with last := some u.eng.nextNum }) =
        (turnAttempt d .run u.nextPlace u).onKey k fun ks =>
          { ks with run := some { timer := u.inMs (u.settingNat .runMs), turns := n + 1 }, last := some u.eng.nextNum } := by
      unfold armRun
      rw [onKey_onKey]
      simp [State.onKey, State.inMs, State.settingNat, State.setting]
    refine (if_pos hit).trans (made.trans ((turnAttempt_onKey ..).trans ?_))
    rw [if_pos hit]
    rfl
  · refine (if_neg hit).trans ((turnAttempt_onKey ..).trans ?_)
    rw [if_neg hit]
    rfl

theorem settles_iff (k : KeyScan) : k.settles = true ↔ ∃ r, k.run = some r ∧ 0 < r.turns := by
  unfold KeyScan.settles
  cases k.run <;> simp

/-- The tick of a key's armed run. -/
theorem effect_runTick {s : State} {k : Key} {d : Dir} {due n : Nat} (run : (s.keys.key k).run = some { timer := some due, turns := n })
    (dir : keyDir k = some d) : effect (.runTick k) s = ticked k d n { s with now := max s.now due } := by
  have timer : (s.keys.key k).runTimer = some due := by rw [KeyScan.runTimer, run]
  refine (expire_armed timer (tickNow k) s).trans ?_
  unfold tickNow
  rw [dir]
  refine (runTickNow_eq ..).trans ?_
  rw [KeyScan.runTurns, show (State.keys { s with now := max s.now due }).key k = s.keys.key k from rfl, run]

end Sys2Proof.Machine

namespace Sys2Proof.Claims

open Sys2Proof Sys2Proof.Machine

/-- Settles O58: a key's edge, its debounce, and its turn. -/
theorem keyEdgesAndDebounce : Obligations.KeyEdgesAndDebounce := by
  refine ⟨fun s k p => ⟨fun same => ?_, fun edge sampled => ?_, fun edge starting => ?_⟩, fun s k due armed => ?debounces,
    fun s k d => ⟨fun hit => keyTurn_turns hit,
      fun m missed => ⟨keyTurn_misses (by rw [missed]; nofun), turnAttempt_miss missed ..⟩⟩⟩
  · exact runs_of_effect (if_pos same)
  · exact runs_of_effect ((if_neg edge).trans (if_neg sampled))
  · exact runs_of_effect ((if_neg edge).trans (if_pos starting))
  case debounces =>
    intro ks u pressed released
    let bare := u.onKey k fun ks => { ks with debounce := none }
    have expired : effect (.debounceExpiry k) s = if ks.pressed = ks.down then bare
        else if ks.pressed = true then pressNow k bare else releaseNow k bare := expire_armed armed (debounceNow k) s
    have press : pressNow k bare = pressAction k pressed := by
      unfold pressNow
      simp only [bare, onKey_onKey]
      rfl
    have release : releaseNow k bare = releaseAction k { ks with debounce := none } released := by
      unfold releaseNow
      simp only [bare, onKey_onKey]
      rw [State.onKey, key_setKey]
      rfl
    have power : pressed.pow = s.pow ∧ released.pow = s.pow := by simp [pressed, released, u]
    have settings : pressed.settings = s.settings ∧ released.settings = s.settings := by simp [pressed, released, u]
    refine ⟨fun same => runs_of_effect (expired.trans (if_pos same)), fun high up => ?_, fun low down => ?_⟩
    · have presses : effect (.debounceExpiry k) s = pressAction k pressed :=
        expired.trans ((if_neg (by rw [high, up]; decide)).trans ((if_pos high).trans press))
      refine ⟨fun asleep => runs_of_effect (presses.trans (if_pos (by rw [power.1]; exact asleep))), fun awake => ?_⟩
      have acts : effect (.debounceExpiry k) s = match keyDir k with
          | none => pressed
          | some d => if pressed.turnsEnabled then keyTurn k d pressed else pressed :=
        presses.trans (if_neg (by rw [power.1]; exact awake))
      rw [turnsEnabled_congr settings.1] at acts
      refine ⟨fun h => runs_of_effect (acts.trans ?_), fun fwd on => runs_of_effect (acts.trans ?_),
        fun back on => runs_of_effect (acts.trans ?_)⟩
      · rcases h with rfl | rfl | off
        · rfl
        · rfl
        · rw [off]
          cases keyDir k <;> rfl
      · subst fwd; exact if_pos on
      · subst back; exact if_pos on
    · have releases : effect (.debounceExpiry k) s = releaseAction k { ks with debounce := none } released :=
        expired.trans ((if_neg (by rw [low, down]; decide)).trans ((if_neg (by rw [low]; decide)).trans release))
      have acts (awake : s.pow.state ≠ .sleep) : effect (.debounceExpiry k) s = match keyDir k with
          | some d => if ks.settles then settleRun d released else released
          | none => if k = .light ∧ ks.state = .down ∧ ks.mute = false ∧ released.toggleEnabled = true then toggleLight released
            else released :=
        releases.trans (if_neg (by rw [power.2]; exact awake))
      refine ⟨fun h => runs_of_effect ?_, fun awake => ⟨fun fwd => runs_of_effect ((acts awake).trans ?_),
        fun back => runs_of_effect ((acts awake).trans ?_), fun light => runs_of_effect ((acts awake).trans ?_)⟩⟩
      · by_cases asleep : s.pow.state = .sleep
        · exact releases.trans (if_pos (by rw [power.2]; exact asleep))
        · refine (acts asleep).trans ?_
          have own := h.resolve_left asleep
          subst own
          exact if_neg (by simp)
      · subst fwd; rfl
      · subst back; rfl
      · subst light
        rw [toggleEnabled_congr settings.2]
        exact ite_congr (propext (by simp)) (fun _ => rfl) fun _ => rfl

/-- Settles O59: a long press, a run's tick, the toggle, and a run's settle update. -/
theorem longPressAndRun : Obligations.LongPressAndRun := by
  refine ⟨⟨fun s k stopped => runs_of_effect (expire_stopped stopped _ s), fun s k due armed => ?longs⟩,
    ⟨fun s k stopped => runs_of_effect (expire_stopped ?_ _ s), fun s k d due n run dir => ?ticks⟩,
    fun s => ⟨fun lit => if_pos lit, fun dark => if_neg (by omega), settles_iff, fun d => ?settles⟩⟩
  case longs =>
    intro ks u held
    have settings : held.settings = s.settings := by simp [held, u]
    have power : held.pow = s.pow := by simp [held, u]
    have expired : effect (.longTimerExpiry k) s = if ks.state = .down then longAction k held else u := by
      refine (expire_armed armed (longNow k) s).trans (ite_congr rfl (fun _ => congrArg (longAction k) ?_) fun _ => rfl)
      rw [onKey_onKey]
      rfl
    have acts (down : ks.state = .down) : effect (.longTimerExpiry k) s = match keyDir k with
        | none => held
        | some d => if s.pow.state ≠ .sleep ∧ s.turnsEnabled = true then ticked k d 0 held else held := by
      refine expired.trans ((if_pos down).trans ?_)
      unfold longAction
      rw [power, turnsEnabled_congr settings]
      cases keyDir k with
      | none => rfl
      | some d => simp only [runTickNow_eq]
    refine ⟨fun other => runs_of_effect (expired.trans (if_neg other)), fun down h => runs_of_effect ((acts down).trans ?_),
      fun down awake on => ⟨fun fwd => runs_of_effect ((acts down).trans ?_), fun back => runs_of_effect ((acts down).trans ?_)⟩⟩
    · rcases h with rfl | rfl | asleep | off
      · rfl
      · rfl
      · simp [asleep] <;> cases keyDir k <;> rfl
      · simp [off] <;> cases keyDir k <;> rfl
    · subst fwd; exact if_pos ⟨awake, on⟩
    · subst back; exact if_pos ⟨awake, on⟩
  · cases run : (s.keys.key k).run with
    | none => rw [KeyScan.runTimer, run]
    | some r => rw [KeyScan.runTimer, run]; exact stopped r run
  case ticks =>
    intro ks u next
    have tick := effect_runTick run dir
    refine ⟨fun lives => runs_of_effect (tick.trans (if_pos lives)),
      fun dead off => runs_of_effect (tick.trans ((if_neg (ne_true_of_eq_false dead)).trans (if_pos off))),
      fun dead on m missed => ?_, fun dead on hit => ?_⟩
    all_goals
      intro t
      have attempts : effect (.runTick k) s = { t with keys := s.keys.setKey k (if s.turnMiss d = none then
          { ks with run := some { timer := next, turns := n + 1 }, last := some s.eng.nextNum } else { ks with run := none }) } :=
        tick.trans ((if_neg (ne_true_of_eq_false dead)).trans (if_neg (ne_false_of_eq_true on)))
    · refine ⟨turnAttempt_miss (s := u) missed .run _, runs_of_effect (attempts.trans ?_)⟩
      rw [missed]
      rfl
    · refine ⟨?_, runs_of_effect (attempts.trans ?_)⟩
      · cases list : s.cache.list d with
        | nil => rw [State.turnMiss, list] at hit; cases hit
        | cons e rest => exact ⟨e, rest, rfl, turnAttempt_turns (s := u) hit list .run _⟩
      · rw [if_pos hit]
  case settles =>
    intro room update
    have room_iff : s.admits = true ↔ room := admits_iff s
    exact ⟨fun admitted => if_pos (room_iff.2 admitted), fun refused => if_neg (mt room_iff.1 refused)⟩

end Sys2Proof.Claims
end

section
namespace Sys2Proof.Machine

open Sys2Proof Sys2Proof.Claims

/-! ## The walk of the boot table (R160) -/

/-- The walk with enough fuel for its bytes. -/
def bootStep (es : List Byte) (k : Nat) (u : State) : State × WalkEnd := walkLoop es (es.length + 1) k u

/-- One entry of the walk. -/
theorem bootStep_eq (es : List Byte) (k : Nat) (u : State) :
    let len := nat16At es (k + 1)
    let next := k + 3 + len
    let d := (es.drop (k + 3)).take len
    bootStep es k u =
      if es.length ≤ k then (u, .over)
      else if es.length < k + 3 then (skipEntry u, .over)
      else if es.length < next then (skipEntry u, .over)
      else if byteAt es k = 0 then (if len = 0 then (u, .over) else bootStep es next (skipEntry u))
      else if byteAt es k = 6 then
        (if len ≠ 8 then bootStep es next (skipEntry u)
         else if imageInside (nat32At d 0) (nat32At d 4) = false then bootStep es next (badImage u)
         else if nat32At d 4 = 0 then bootStep es next u
         else (bootAt next u, .image (nat32At d 0) (nat32At d 4)))
      else bootStep es next (bootEntry (byteAt es k) d u) := by
  intro len next d
  by_cases done : es.length ≤ k
  · rw [if_pos done]
    exact if_pos done
  · have more (v : State) : walkLoop es es.length next v = bootStep es next v :=
      walkLoop_fuel es _ _ _ v (by omega) (by omega) (by omega) (by omega)
    simp only [← more]
    rfl

/-! ## Images (R160, 12.6) -/

theorem recordFits_iff (u : State) (bs : List Byte) (left : Nat) : u.recordFits bs left = true ↔
    byteAt bs 0 ≤ 3 ∧ byteAt bs 1 < u.wav.table.count ∧ 1 ≤ byteAt bs 2 ∧ byteAt bs 2 ≤ u.freeUnits ∧
      8 + 64 * byteAt bs 2 ≤ bs.length + left := by
  unfold State.recordFits State.unitsFit recordSize
  simp only [Bool.and_eq_true, waveFieldsOk_iff, decide_eq_true_eq, and_assoc]

/-- The records after one of an image is installed (R22, R160). -/
theorem installRecord_eq {bs : List Byte} {m : Mode} (u : State) (mode : modeOf (byteAt bs 0) = some m) :
    let w := { u.newWave m (byteAt bs 1) (byteAt bs 2) (byteAt bs 3) with phases := phaseUnitsOf (recordData bs) }
    installRecord bs u = { u with wav := { u.wav with
      waves := (leaveSlots (Wave.inSlot m (byteAt bs 1)) (u.wav.waves ++ [w])).map fun x =>
        if x.num = u.wav.nextNum then { x with state := .installed } else x,
      nextNum := u.wav.nextNum + 1 } } := by
  unfold installRecord
  rw [mode]
  rfl

/-! ## A new limit with nothing claimed (R109) -/

/-- With no claim, no queue and a dark light a new limit is set, and nothing follows. -/
theorem newLimit_quiet {s : State} (limit : Nat) (waiting : s.sup.waiting = []) (queue : s.eng.queue = [])
    (flash : s.store.flash ≠ .claiming) (running : s.fetch.paused = false) (claim : s.light.claim = 0) (grant : s.light.grant = 0) :
    newLimit limit s = { s with sup := { s.sup with limit := limit } } := by
  let s0 : State := { s with sup := { s.sup with limit := limit } }
  have engine : engineMisfit s0 = none := engineMisfit_eq_none fun e p ⟨claiming, _⟩ => by
    simp [State.claimingEntry, s0, queue] at claiming
  have store : storeMisfit s0 = none := storeMisfit_eq_none fun o ⟨claiming, _⟩ => flash claiming
  have judged : judgeStoreClaim (judgeEngineClaim s0) = s0 := by
    rw [judgeEngineClaim, engine]
    show judgeStoreClaim s0 = s0
    rw [judgeStoreClaim, store]
  have uncut : cutToLimit s0 = s0 := by
    unfold cutToLimit cutLight
    rw [if_neg (show ¬ s0.sup.limit - s0.others < s0.light.grant by rw [show s0.light.grant = 0 from grant]; exact Nat.not_lt_zero _)]
    exact ite_self _
  have passed : decisionPass s0 = s0 :=
    (decisionPass_empty (s := s0) waiting).trans (if_neg fun ⟨wants, _⟩ => by
      rw [show s0.light.claim = 0 from claim] at wants
      exact Nat.not_lt_zero _ wants)
  rw [newLimit_eq engine store judged, uncut, passed, running]
  rfl

/-- A new limit table with no claim, no queue and a dark light. -/
theorem putLimits_quiet {s : State} (pts : List (Nat × Nat)) (waiting : s.sup.waiting = []) (queue : s.eng.queue = [])
    (flash : s.store.flash ≠ .claiming) (running : s.fetch.paused = false) (claim : s.light.claim = 0) (grant : s.light.grant = 0) :
    putLimits pts s = { s with sup := { s.sup with
      limitTable := pts,
      limit := match s.sup.volts with
        | none => s.sup.limit
        | some v => limitFor pts v } } := by
  unfold putLimits
  cases volts : s.sup.volts with
  | none => simp only [volts]
  | some v =>
    exact newLimit_quiet (s := { s with sup := { s.sup with limitTable := pts } }) _ waiting queue flash running claim grant

/-- The end of start-up changes power control, the keys, the sample timer and the link alone (R161). -/
theorem startUpEnd_eq (o : BootOutcome) (n : Nat) (s : State) : ∃ link keys, startUpEnd o n s = { s with
    pow := { s.pow with state := .active, boot := none, outcome := o, skipped := n, events := s.pow.events ||| 1 },
    sup := { s.sup with sample := some (s.now + 1000000) }, link := link, keys := keys } :=
  ⟨_, _, trigger_changes_link ..⟩

end Sys2Proof.Machine

namespace Sys2Proof.Claims

open Sys2Proof Sys2Proof.Machine

/-- Settles O60: the parts of the boot read, the walk, the images, and DEFAULTS. -/
theorem bootTableApplied : Obligations.BootTableApplied := by
  refine ⟨fun s b bytes boot' => ?parts, ⟨fun es k u => ?walks, fun d u => ?entries⟩,
    ⟨fun s b i bytes boot' image => ?images, fun u next left got => rfl, fun u left bs => ?records⟩,
    fun s waiting queue flash running claim grant => ?defaults⟩
  case parts =>
    intro boot reading started len good all kept
    have read (image : b.image = none) : bootReadDone bytes s =
        if b.headerRead = true then entriesDone b bytes s else headerDone bytes s := by
      unfold bootReadDone
      simp only [boot', image]
    refine ⟨fun image header => ?_, fun image header => ?_, ?_, rfl, fun u => rfl⟩
    · have headed : bootReadDone bytes s = headerDone bytes s := (read image).trans (if_neg (by rw [header]; decide))
      have bad_iff : (nat16At bytes 0 ≠ 0x4D5A ∨ nat32At bytes 2 < 1 ∨ 65536 < nat32At bytes 2) ↔ ¬ good := by
        simp only [good, len]; omega
      exact ⟨fun bad => headed.trans (if_pos (bad_iff.2 bad)), fun fine => headed.trans (if_neg (mt bad_iff.1 (Classical.not_not.2 fine)))⟩
    · have entered : bootReadDone bytes s = entriesDone b bytes s := (read image).trans (if_pos header)
      exact ⟨fun more => entered.trans (if_pos more),
        fun whole differs => entered.trans ((if_neg (Nat.not_lt.2 whole)).trans (if_neg differs)),
        fun whole same => entered.trans ((if_neg (Nat.not_lt.2 whole)).trans (if_pos same))⟩
    · unfold bootWalked
      rw [boot']
      rfl
  case walks =>
    intro boot skip walk kind len d next
    have step : walk k u = _ := bootStep_eq es k u
    refine ⟨fun done => step.trans (if_pos done), fun inside past => step.trans ((if_neg (Nat.not_le.2 inside)).trans ?_),
      fun header fits => ?_, fun b v boot' walked => ?_, fun b v a n boot' walked => ?_⟩
    · by_cases short : es.length < k + 3
      · exact if_pos short
      · exact (if_neg short).trans (if_pos (past.resolve_left short))
    · have entered := step.trans ((if_neg (show ¬ es.length ≤ k by omega)).trans ((if_neg (Nat.not_lt.2 header)).trans
        (if_neg (Nat.not_lt.2 fits))))
      have wave (six : kind = 6) := entered.trans ((if_neg (show ¬ kind = 0 by omega)).trans (if_pos six))
      refine ⟨fun zero bare => entered.trans ((if_pos zero).trans (if_pos bare)), fun h => ?_, fun six eight => ?_,
        fun zero six => entered.trans ((if_neg zero).trans (if_neg six))⟩
      · rcases h with ⟨zero, data⟩ | ⟨six, odd⟩
        · exact entered.trans ((if_pos zero).trans (if_neg data))
        · exact (wave six).trans (if_pos odd)
      · have placed := (wave six).trans (if_neg (Classical.not_not.2 eight))
        have inside_iff : imageInside (nat32At d 0) (nat32At d 4) = false ↔ 1048576 < nat32At d 0 + nat32At d 4 :=
          decide_eq_false_iff_not.trans Nat.not_le
        refine ⟨fun out => placed.trans (if_pos (inside_iff.2 out)), fun in' bare => ?_, fun in' data => ?_⟩
        all_goals have inside := mt inside_iff.1 (Nat.not_lt.2 in')
        · exact placed.trans ((if_neg inside).trans (if_pos bare))
        · exact placed.trans ((if_neg inside).trans (if_neg data))
    · unfold bootWalk
      simp only [boot', walked]
    · unfold bootWalk
      simp only [boot', walked]
  case entries =>
    intro skip pts table
    have levels_iff : toneMapOk d = true ↔ ∀ x ∈ d, x.toNat ≤ 15 := toneMapOk_iff d
    refine ⟨fun kind out => ?_, fun st known five => ?_, fun h => ?_, fun size levels => if_pos ⟨size, levels_iff.2 levels⟩,
      fun h => if_neg ?_, fun fits good => ⟨if_pos ⟨fits, good⟩, rfl, rfl, rfl⟩, fun h => if_neg ?_,
      fun fits good => (if_pos ⟨fits, good⟩).trans ?_, fun h => if_neg ?_,
      fun fits good => (if_pos ⟨fits, good⟩).trans (putFollow_eq d u),
      fun h => if_neg ?_⟩
    · match kind, out with
      | 0, _ => rfl
      | n + 6, _ => rfl
    · show bootSetting d u = _
      unfold bootSetting
      simp only [known]
      exact if_pos five
    · show bootSetting d u = _
      unfold bootSetting
      rcases h with unknown | odd
      · simp only [unknown]
        rfl
      · cases settingOfNumber (byteAt d 0) with
        | none => rfl
        | some st => exact if_neg odd
    · rintro ⟨size, levels⟩
      rcases h with odd | ⟨x, hx, above⟩
      · exact odd size
      · exact absurd (levels_iff.1 levels x hx) (Nat.not_le.2 above)
    · rintro ⟨fits, good⟩
      rcases h with odd | bad
      · rw [odd] at fits; cases fits
      · exact bad good
    · unfold putLimits
      cases u.sup.volts <;> rfl
    · rintro ⟨fits, good⟩
      rcases h with odd | bad
      · rw [odd] at fits; cases fits
      · rw [show limitsOk (pairs16 d) = false from bad] at good; cases good
    · rintro ⟨fits, good⟩
      rcases h with odd | bad
      · rw [odd] at fits; cases fits
      · exact bad good
  case images =>
    intro all judged boot
    have done : bootReadDone bytes s = imageDone i bytes s := by
      unfold bootReadDone
      simp only [boot', image]
    refine ⟨fun u used => done.trans ?_, fun u bad => done.trans ?_, fun u rest more => done.trans ?_⟩
    all_goals unfold imageDone
    · simp only [show imageLoop i.left ((i.got ++ bytes).length + 1) (i.got ++ bytes) s = _ from used]
      rfl
    · simp only [show imageLoop i.left ((i.got ++ bytes).length + 1) (i.got ++ bytes) s = _ from bad]
      unfold imageOver badImage onBoot State.onPow
      simp only [Option.map_map]
      rfl
    · simp only [show imageLoop i.left ((i.got ++ bytes).length + 1) (i.got ++ bytes) s = _ from more]
  case records =>
    intro judge phases size data fits summed
    have fits_iff : u.recordFits bs left = true ↔ fits := recordFits_iff u bs left
    have judged : judge bs u = if bs.length + left = 0 then (u, .over)
        else if bs.length + left < 8 then (u, .bad)
        else if bs.length < 8 then (u, .more bs)
        else if u.recordFits bs left = false then (u, .bad)
        else if bs.length < size then (u, .more bs)
        else if recordSumOk bs = false then (u, .bad)
        else imageLoop left bs.length (bs.drop size) (installRecord bs u) := rfl
    have sum_iff : recordSumOk bs = true ↔ summed := beq_iff_eq
    refine ⟨fun empty => judged.trans (if_pos empty), fun some' short => judged.trans ((if_neg (Nat.ne_of_gt some')).trans (if_pos short)),
      fun long short => judged.trans ?_, fun long => ?_⟩
    · exact (if_neg (by omega)).trans ((if_neg (Nat.not_lt.2 long)).trans (if_pos short))
    · have headed := judged.trans ((if_neg (by omega)).trans ((if_neg (by omega)).trans (if_neg (Nat.not_lt.2 long))))
      have accepted (good : fits) := headed.trans (if_neg (ne_false_of_eq_true (fits_iff.2 good)))
      refine ⟨fun bad => headed.trans (if_pos (Bool.eq_false_iff.2 (mt fits_iff.1 bad))), fun good short => ?_,
        fun good whole differs => ?_, fun good whole same => ?_, fun m mode => ?_⟩
      · exact (accepted good).trans (if_pos short)
      · exact (accepted good).trans ((if_neg (Nat.not_lt.2 whole)).trans (if_pos (Bool.eq_false_iff.2 (mt sum_iff.1 differs))))
      · refine (accepted good).trans ((if_neg (Nat.not_lt.2 whole)).trans ((if_neg (ne_false_of_eq_true (sum_iff.2 same))).trans ?_))
        exact imageLoop_fuel left _ _ _ _ (by rw [List.length_drop]; simp only [size]; omega) (Nat.lt_succ_self _)
      · intro w v
        let opened : Wave := { u.newWave m (byteAt bs 1) (byteAt bs 2) (byteAt bs 3) with phases := phaseUnitsOf (recordData bs) }
        have v_eq : v = _ := installRecord_eq u (mode ▸ modeOf_code m)
        have waves : v.wav.waves = (leaveSlots (Wave.inSlot m (byteAt bs 1)) (u.wav.waves ++ [opened])).map fun x =>
            if x.num = u.wav.nextNum then { x with state := .installed } else x := by rw [v_eq]
        refine ⟨by rw [waves]; exact v_eq, ?_, fun x _ _ installed own band unused y hy other => ?_, fun x hx other alive free => ?_⟩
        · rw [waves]
          refine List.mem_map.2 ⟨opened, mem_leaveSlots_of_stays (by simp) (fun slot => ?_) (fun r => ?_), if_pos rfl⟩
          · cases slot.1
          · cases r
        · rw [waves] at hy
          obtain ⟨z, hz, rfl⟩ := List.mem_map.1 hy
          split at other
          · rename_i new
            exact absurd new other
          · rename_i old
            rw [if_neg old]
            refine ⟨?_, ?_⟩ <;> rintro rfl
            · exact not_mem_leaveSlots ⟨installed, own, band⟩ (by rw [installed]; decide) hz
            · exact retired_not_mem_leaveSlots unused hz
        · rw [waves]
          exact List.mem_map.2 ⟨x, mem_leaveSlots_of_stays (List.mem_append_left _ hx) free fun r => absurd r alive, if_neg other⟩
  case defaults =>
    intro t
    let plain : State := lightMix { s with
      light := { s.light with follow := false, table := [], step := none, settle := none, toggledOff := false },
      settings := defaultSettings,
      img := { s.img with toneMap := defaultToneMap },
      wav := { s.wav with waves := [], table := WaveStore.reset.table },
      conv := { s.conv with amb := false } }
    have reverted : revertBoot s = _ := putLimits_quiet (s := plain) defaultLimitTable waiting queue flash running claim grant
    obtain ⟨link, keys, ended⟩ := startUpEnd_eq .defaults 0 (revertBoot s)
    rw [show t = _ from ended, reverted]
    exact ⟨rfl, rfl, rfl, rfl, rfl, rfl, rfl, rfl, rfl, ⟨_, _, rfl⟩, rfl, rfl, rfl, rfl, rfl, rfl, rfl⟩

end Sys2Proof.Claims
end
